-- ==== Sys2Proof/Word.lean ====
section
/-! DEFINITION. The word types of the riscemu CORE (spec/00_scope.md rules R5 and R6). -/

namespace Sys2Proof

/-- A word: `XLEN` = 32 bits, bit 31 most significant (R6). -/
abbrev Word := BitVec 32

/-- One byte of D-space (R50). -/
abbrev Byte := BitVec 8

/-- A general register's 5-bit index, `0..31` (R21). -/
abbrev RegIdx := BitVec 5

/-- A decoded-instruction word, 64 bits, bit 63 most significant (R82). -/
abbrev Diw := BitVec 64

end Sys2Proof
end

