-- ==== Sys2Proof/Syntax.lean ====
section
/-! DEFINITION. Decoded instructions (spec/30_encoding.md, R81, R83, R86) and the instructions of the opcode table. -/

namespace Sys2Proof

/-- The 44 mnemonics with a registered handler (R83), in the order of the tag table. -/
inductive Mnemonic where
  | lb | lh | lw | lbu | lhu | sb | sh | sw
  | sll | srl | sra | slli | srli | srai
  | add | sub | and | or | xor | addi | andi | ori | xori
  | slt | sltu | slti | sltiu
  | lui | auipc
  | beq | bne | blt | bge | bltu | bgeu
  | j | jal | jalr | ret
  | ecall | scall | ebreak | sbreak | nop
  deriving DecidableEq, Repr

/-- The mnemonic of a decoded instruction: one of the 44, or a tag outside the set (R81, R84). -/
inductive MnemName where
  | known (m : Mnemonic)
  | unregistered (tag : Byte)
  deriving DecidableEq, Repr

/-- An operand (R81): a register reference, an immediate constant, or an (immediate, base register) pair. -/
inductive Operand where
  | reg (r : RegIdx)
  | imm (i : Word)
  | mem (i : Word) (b : RegIdx)
  deriving DecidableEq, Repr

/-- The three operand kinds (R82). -/
inductive Kind where
  | reg | imm | mem
  deriving DecidableEq, Repr

/-- The operand forms (R86). `any` is the form of the seven unimplemented mnemonics. -/
inductive Form where
  | n | r3 | rri | rm | i1 | ri | any
  deriving DecidableEq, Repr

/-- A Decoded Instruction: a mnemonic and its operand list (R81). -/
structure Decoded where
  name : MnemName
  ops : List Operand
  deriving DecidableEq, Repr

/-- The five classes of a fetched instruction (R90). -/
inductive Class where
  | unregistered | unimplemented | malformedArity | malformedKind | wellFormed
  deriving DecidableEq, Repr

/-- Why a decoded instruction is no instruction of the opcode table: no handler (R91), a wrong operand
count, or a wrong operand kind (R92, R119). -/
inductive Reject where
  | unregistered (tag : Byte)
  | operandCount (m : Mnemonic)
  | operandKind (m : Mnemonic)
  deriving DecidableEq, Repr

/-- One row of the opcode table: its mnemonic, form, and the bits it tests (R90). -/
structure OpRow where
  mnemonic : Mnemonic
  form : Form
  pattern : Diw
  mask : Diw
  deriving DecidableEq, Repr

/-- The instructions, one constructor per row of `spec/opcode_table.json`. Operands stand in the order of R86.
The seven unimplemented mnemonics carry their operand list, which no handler examines but which a fault
report names (R257). -/
inductive Instr where
  -- memory access: destination (loads) or source (stores), base, offset
  | lbRri (rd rs1 : RegIdx) (imm : Word)
  | lbRm (rd : RegIdx) (imm : Word) (rs1 : RegIdx)
  | lhRri (rd rs1 : RegIdx) (imm : Word)
  | lhRm (rd : RegIdx) (imm : Word) (rs1 : RegIdx)
  | lwRri (rd rs1 : RegIdx) (imm : Word)
  | lwRm (rd : RegIdx) (imm : Word) (rs1 : RegIdx)
  | lbuRri (rd rs1 : RegIdx) (imm : Word)
  | lbuRm (rd : RegIdx) (imm : Word) (rs1 : RegIdx)
  | lhuRri (rd rs1 : RegIdx) (imm : Word)
  | lhuRm (rd : RegIdx) (imm : Word) (rs1 : RegIdx)
  | sbRri (rs2 rs1 : RegIdx) (imm : Word)
  | sbRm (rs2 : RegIdx) (imm : Word) (rs1 : RegIdx)
  | shRri (rs2 rs1 : RegIdx) (imm : Word)
  | shRm (rs2 : RegIdx) (imm : Word) (rs1 : RegIdx)
  | swRri (rs2 rs1 : RegIdx) (imm : Word)
  | swRm (rs2 : RegIdx) (imm : Word) (rs1 : RegIdx)
  -- shift
  | sll (rd rs1 rs2 : RegIdx)
  | srl (rd rs1 rs2 : RegIdx)
  | sra (rd rs1 rs2 : RegIdx)
  | slli (rd rs1 : RegIdx) (imm : Word)
  | srli (rd rs1 : RegIdx) (imm : Word)
  | srai (rd rs1 : RegIdx) (imm : Word)
  -- arithmetic, logic, compare
  | add (rd rs1 rs2 : RegIdx)
  | sub (rd rs1 rs2 : RegIdx)
  | and (rd rs1 rs2 : RegIdx)
  | or (rd rs1 rs2 : RegIdx)
  | xor (rd rs1 rs2 : RegIdx)
  | addi (rd rs1 : RegIdx) (imm : Word)
  | andi (ops : List Operand)
  | ori (ops : List Operand)
  | xori (ops : List Operand)
  | slt (rd rs1 rs2 : RegIdx)
  | sltu (rd rs1 rs2 : RegIdx)
  | slti (ops : List Operand)
  | sltiu (ops : List Operand)
  | lui (ops : List Operand)
  | auipc (ops : List Operand)
  -- branch
  | beq (rs1 rs2 : RegIdx) (target : Word)
  | bne (rs1 rs2 : RegIdx) (target : Word)
  | blt (rs1 rs2 : RegIdx) (target : Word)
  | bge (rs1 rs2 : RegIdx) (target : Word)
  | bltu (rs1 rs2 : RegIdx) (target : Word)
  | bgeu (rs1 rs2 : RegIdx) (target : Word)
  -- jump
  | j (target : Word)
  | jalI1 (target : Word)
  | jalRi (rd : RegIdx) (target : Word)
  | jalr (rd : RegIdx) (target : Word)
  | ret
  -- system
  | ecall
  | scall
  | ebreak
  | sbreak
  | nop
  deriving DecidableEq, Repr

end Sys2Proof
end

