-- ==== Sys2Proof/WellFormed.lean ====
section
/-! DEFINITION. Which instructions a decoded-instruction word can carry (spec/30_encoding.md R82, R84). -/

namespace Sys2Proof

/-- The immediate word of an `Imm` or `Mem` operand. -/
def Operand.immediate? : Operand → Option Word
  | .reg _ => none
  | .imm i => some i
  | .mem i _ => some i

/-- The immediate words of an operand list, in order. -/
def immediates (ops : List Operand) : List Word :=
  ops.filterMap Operand.immediate?

/-- A DIW has three operand slots (R82). -/
def fitsSlots (ops : List Operand) : Bool :=
  ops.length ≤ 3

/-- A DIW has one `imm` field, which every `Imm` or `Mem` slot shares (R82, R84). DEDUCED (log 16): the spec's own
condition is 'at most one'; two slots with the same word are what R84 says such a word unpacks to. -/
def sharesImmediate (ops : List Operand) : Bool :=
  match immediates ops with
  | [] => true
  | i :: rest => rest.all (· == i)

/-- An operand list that some DIW unpacks to. -/
def packable (ops : List Operand) : Bool :=
  fitsSlots ops && sharesImmediate ops

/-- A well-formed instruction: every field of the 46 well-formed rows has its width by type, so only
the unexamined operand list of the seven unimplemented mnemonics is checked. -/
def Instr.wellFormed : Instr → Bool
  | .andi ops | .ori ops | .xori ops | .slti ops | .sltiu ops | .lui ops | .auipc ops => packable ops
  | .lbRri .. | .lbRm .. | .lhRri .. | .lhRm .. | .lwRri .. | .lwRm .. | .lbuRri .. | .lbuRm ..
  | .lhuRri .. | .lhuRm .. | .sbRri .. | .sbRm .. | .shRri .. | .shRm .. | .swRri .. | .swRm ..
  | .sll .. | .srl .. | .sra .. | .slli .. | .srli .. | .srai ..
  | .add .. | .sub .. | .and .. | .or .. | .xor .. | .addi .. | .slt .. | .sltu ..
  | .beq .. | .bne .. | .blt .. | .bge .. | .bltu .. | .bgeu ..
  | .j .. | .jalI1 .. | .jalRi .. | .jalr .. | .ret
  | .ecall | .scall | .ebreak | .sbreak | .nop => true

end Sys2Proof
end

