-- ==== Sys2Proof/Decode.lean ====
section
/-! DEFINITION. The decoded-instruction word (spec/30_encoding.md): unpacking, classification, decoding to an
instruction of the opcode table, and the encoder. The layout and the tags are the spec's own (decision D13). -/

namespace Sys2Proof

/-- The mnemonic tags (R83). -/
def Mnemonic.tag : Mnemonic → Byte
  | .lb => 0x10
  | .lh => 0x11
  | .lw => 0x12
  | .lbu => 0x13
  | .lhu => 0x14
  | .sb => 0x15
  | .sh => 0x16
  | .sw => 0x17
  | .sll => 0x20
  | .srl => 0x21
  | .sra => 0x22
  | .slli => 0x23
  | .srli => 0x24
  | .srai => 0x25
  | .add => 0x30
  | .sub => 0x31
  | .and => 0x32
  | .or => 0x33
  | .xor => 0x34
  | .addi => 0x35
  | .andi => 0x36
  | .ori => 0x37
  | .xori => 0x38
  | .slt => 0x40
  | .sltu => 0x41
  | .slti => 0x42
  | .sltiu => 0x43
  | .lui => 0x50
  | .auipc => 0x51
  | .beq => 0x60
  | .bne => 0x61
  | .blt => 0x62
  | .bge => 0x63
  | .bltu => 0x64
  | .bgeu => 0x65
  | .j => 0x70
  | .jal => 0x71
  | .jalr => 0x72
  | .ret => 0x73
  | .ecall => 0x80
  | .scall => 0x81
  | .ebreak => 0x82
  | .sbreak => 0x83
  | .nop => 0x84

/-- The registry of handlers (R83, R126): every mnemonic that has one. -/
def registry : List Mnemonic :=
  [.lb, .lh, .lw, .lbu, .lhu, .sb, .sh, .sw,
   .sll, .srl, .sra, .slli, .srli, .srai,
   .add, .sub, .and, .or, .xor, .addi, .andi, .ori, .xori,
   .slt, .sltu, .slti, .sltiu, .lui, .auipc,
   .beq, .bne, .blt, .bge, .bltu, .bgeu,
   .j, .jal, .jalr, .ret, .ecall, .scall, .ebreak, .sbreak, .nop]

/-- `SupportedMnemonics()`, the introspection port (R126). -/
def supportedMnemonics : List Mnemonic := registry

/-- The handler-table lookup by mnemonic alone (R116); `none`: no handler (R118). -/
def lookup : MnemName → Option Mnemonic
  | .known m => registry.find? (· == m)
  | .unregistered _ => none

/-- The mnemonic a tag stands for (R83, R84). -/
def nameOfTag (t : Byte) : MnemName :=
  match registry.find? (fun m => m.tag == t) with
  | some m => .known m
  | none => .unregistered t

/-- The seven recognized but unimplemented mnemonics (R93). -/
def Mnemonic.isUnimplemented : Mnemonic → Bool
  | .lui | .auipc | .xori | .ori | .andi | .slti | .sltiu => true
  | .lb | .lh | .lw | .lbu | .lhu | .sb | .sh | .sw | .sll | .srl | .sra | .slli | .srli | .srai
  | .add | .sub | .and | .or | .xor | .addi | .slt | .sltu | .beq | .bne | .blt | .bge | .bltu | .bgeu
  | .j | .jal | .jalr | .ret | .ecall | .scall | .ebreak | .sbreak | .nop => false

/-- The forms each mnemonic accepts (R86). -/
def Mnemonic.forms : Mnemonic → List Form
  | .lb | .lh | .lw | .lbu | .lhu | .sb | .sh | .sw => [.rri, .rm]
  | .sll | .srl | .sra | .add | .sub | .and | .or | .xor | .slt | .sltu => [.r3]
  | .slli | .srli | .srai | .addi => [.rri]
  | .beq | .bne | .blt | .bge | .bltu | .bgeu => [.rri]
  | .j => [.i1]
  | .jal => [.i1, .ri]
  | .jalr => [.ri]
  | .ret | .ecall | .scall | .ebreak | .sbreak | .nop => [.n]
  | .lui | .auipc | .xori | .ori | .andi | .slti | .sltiu => [.any]

/-- The kind of an operand (R82). -/
def Operand.kind : Operand → Kind
  | .reg _ => .reg
  | .imm _ => .imm
  | .mem _ _ => .mem

/-- The kind sequence of a form (R86); `none`: any list. -/
def Form.kinds : Form → Option (List Kind)
  | .n => some []
  | .r3 => some [.reg, .reg, .reg]
  | .rri => some [.reg, .reg, .imm]
  | .rm => some [.reg, .mem]
  | .i1 => some [.imm]
  | .ri => some [.reg, .imm]
  | .any => none

/-- Has this operand list the form's length (R119, the count test)? -/
def Form.acceptsCount (f : Form) (ops : List Operand) : Bool :=
  match f.kinds with
  | some ks => ks.length == ops.length
  | none => true

/-- Has this operand list the form's kind sequence (R119, the kind test)? -/
def Form.acceptsKinds (f : Form) (ops : List Operand) : Bool :=
  match f.kinds with
  | some ks => ks == ops.map Operand.kind
  | none => true

/-! ### Unpacking a word (R82, R84) -/

/-- The `op` field, bits 63:56. -/
def Diw.op (w : Diw) : Byte := w.extractLsb' 56 8
/-- The `k0` field, bits 55:54. -/
def Diw.k0 (w : Diw) : BitVec 2 := w.extractLsb' 54 2
/-- The `k1` field, bits 53:52. -/
def Diw.k1 (w : Diw) : BitVec 2 := w.extractLsb' 52 2
/-- The `k2` field, bits 51:50. -/
def Diw.k2 (w : Diw) : BitVec 2 := w.extractLsb' 50 2
/-- The `r0` field, bits 49:45. -/
def Diw.r0 (w : Diw) : RegIdx := w.extractLsb' 45 5
/-- The `r1` field, bits 44:40. -/
def Diw.r1 (w : Diw) : RegIdx := w.extractLsb' 40 5
/-- The `r2` field, bits 39:35. -/
def Diw.r2 (w : Diw) : RegIdx := w.extractLsb' 35 5
/-- The `imm` field, bits 31:0. -/
def Diw.imm (w : Diw) : Word := w.extractLsb' 0 32

/-- The operand of one slot, from its kind code, its register field and the shared immediate (R82); `none`: absent. -/
def slotOperand (k : BitVec 2) (r : RegIdx) (i : Word) : Option Operand :=
  if k = 0 then none
  else if k = 1 then some (.reg r)
  else if k = 2 then some (.imm i)
  else some (.mem i r)

/-- The operands before the first absent slot (R84). -/
def upToAbsent : List (Option Operand) → List Operand
  | some o :: rest => o :: upToAbsent rest
  | none :: _ => []
  | [] => []

/-- `Unpack` (R84): total; the fields it does not read do not matter (R95). -/
def unpack (w : Diw) : Decoded where
  name := nameOfTag (Diw.op w)
  ops := upToAbsent [slotOperand (Diw.k0 w) (Diw.r0 w) (Diw.imm w), slotOperand (Diw.k1 w) (Diw.r1 w) (Diw.imm w),
    slotOperand (Diw.k2 w) (Diw.r2 w) (Diw.imm w)]

/-! ### Packing (R85) -/

/-- The kind code of a slot (R82). -/
def kindCode : Option Operand → BitVec 2
  | none => 0
  | some (.reg _) => 1
  | some (.imm _) => 2
  | some (.mem _ _) => 3

/-- The register field of a slot; zero where R84 does not read it (R85). -/
def regField : Option Operand → RegIdx
  | none => 0
  | some (.reg r) => r
  | some (.imm _) => 0
  | some (.mem _ b) => b

/-- The `imm` field: the immediate word, or zero where no operand uses it (R85). -/
def immField (ops : List Operand) : Word :=
  (immediates ops).headD 0

/-- The tag of a mnemonic name (R83, R84). -/
def MnemName.tag : MnemName → Byte
  | .known m => m.tag
  | .unregistered t => t

/-- `Pack`, the canonical DIW of a decoded instruction (R85), field by field from bit 63. -/
def pack (d : Decoded) : Diw :=
  d.name.tag ++ kindCode d.ops[0]? ++ kindCode d.ops[1]? ++ kindCode d.ops[2]?
    ++ regField d.ops[0]? ++ regField d.ops[1]? ++ regField d.ops[2]? ++ 0#3 ++ immField d.ops

/-! ### Classification and the instruction of a row (R90, R119) -/

/-- `Classify` (R90), its tests in the rule's order. -/
def classify (d : Decoded) : Class :=
  match lookup d.name with
  | none => .unregistered
  | some m =>
    if m.isUnimplemented then .unimplemented
    else if !(m.forms.any (·.acceptsCount d.ops)) then .malformedArity
    else if !(m.forms.any (·.acceptsKinds d.ops)) then .malformedKind
    else .wellFormed

/-- The operands of form R3 (R86). -/
def formR3 (f : RegIdx → RegIdx → RegIdx → Instr) : List Operand → Option Instr
  | [.reg a, .reg b, .reg c] => some (f a b c)
  | _ => none

/-- The operands of form RRI (R86). -/
def formRri (f : RegIdx → RegIdx → Word → Instr) : List Operand → Option Instr
  | [.reg a, .reg b, .imm i] => some (f a b i)
  | _ => none

/-- The operands of the two memory-access forms, RRI and RM (R86, R89). -/
def formMem (rri : RegIdx → RegIdx → Word → Instr) (rm : RegIdx → Word → RegIdx → Instr) : List Operand → Option Instr
  | [.reg a, .reg b, .imm i] => some (rri a b i)
  | [.reg a, .mem i b] => some (rm a i b)
  | _ => none

/-- The operand of form I1 (R86). -/
def formI1 (f : Word → Instr) : List Operand → Option Instr
  | [.imm i] => some (f i)
  | _ => none

/-- The operands of form RI (R86). -/
def formRi (f : RegIdx → Word → Instr) : List Operand → Option Instr
  | [.reg a, .imm i] => some (f a i)
  | _ => none

/-- The two forms of `jal`, I1 and RI (R86, R221). -/
def formJal (i1 : Word → Instr) (ri : RegIdx → Word → Instr) : List Operand → Option Instr
  | [.imm i] => some (i1 i)
  | [.reg a, .imm i] => some (ri a i)
  | _ => none

/-- Form N: no operand (R86). -/
def formN (f : Instr) : List Operand → Option Instr
  | [] => some f
  | _ => none

/-- The opcode-table instruction of a mnemonic and an operand list; `none` where the form is not accepted (R86). -/
def select : Mnemonic → List Operand → Option Instr
  | .lb, ops => formMem .lbRri .lbRm ops
  | .lh, ops => formMem .lhRri .lhRm ops
  | .lw, ops => formMem .lwRri .lwRm ops
  | .lbu, ops => formMem .lbuRri .lbuRm ops
  | .lhu, ops => formMem .lhuRri .lhuRm ops
  | .sb, ops => formMem .sbRri .sbRm ops
  | .sh, ops => formMem .shRri .shRm ops
  | .sw, ops => formMem .swRri .swRm ops
  | .sll, ops => formR3 .sll ops
  | .srl, ops => formR3 .srl ops
  | .sra, ops => formR3 .sra ops
  | .slli, ops => formRri .slli ops
  | .srli, ops => formRri .srli ops
  | .srai, ops => formRri .srai ops
  | .add, ops => formR3 .add ops
  | .sub, ops => formR3 .sub ops
  | .and, ops => formR3 .and ops
  | .or, ops => formR3 .or ops
  | .xor, ops => formR3 .xor ops
  | .addi, ops => formRri .addi ops
  | .andi, ops => some (.andi ops)
  | .ori, ops => some (.ori ops)
  | .xori, ops => some (.xori ops)
  | .slt, ops => formR3 .slt ops
  | .sltu, ops => formR3 .sltu ops
  | .slti, ops => some (.slti ops)
  | .sltiu, ops => some (.sltiu ops)
  | .lui, ops => some (.lui ops)
  | .auipc, ops => some (.auipc ops)
  | .beq, ops => formRri .beq ops
  | .bne, ops => formRri .bne ops
  | .blt, ops => formRri .blt ops
  | .bge, ops => formRri .bge ops
  | .bltu, ops => formRri .bltu ops
  | .bgeu, ops => formRri .bgeu ops
  | .j, ops => formI1 .j ops
  | .jal, ops => formJal .jalI1 .jalRi ops
  | .jalr, ops => formRi .jalr ops
  | .ret, ops => formN .ret ops
  | .ecall, ops => formN .ecall ops
  | .scall, ops => formN .scall ops
  | .ebreak, ops => formN .ebreak ops
  | .sbreak, ops => formN .sbreak ops
  | .nop, ops => formN .nop ops

/-- What dispatch makes of a decoded instruction (R90, R116 to R119): an instruction of the table, or the reason
there is none. The count is tested before the kinds. -/
def dispatch (d : Decoded) : Except Reject Instr :=
  match lookup d.name with
  | none => .error (.unregistered d.name.tag)
  | some m =>
    match classify d, select m d.ops with
    | .malformedArity, _ => .error (.operandCount m)
    | .malformedKind, _ => .error (.operandKind m)
    | _, some i => .ok i
    | _, none => .error (.operandKind m)

/-- Decoding a fetched word: total, with a name for each rejection. -/
def decode (w : Diw) : Except Reject Instr :=
  dispatch (unpack w)

/-! ### The encoder (R85) -/

/-- The mnemonic of an instruction. -/
def Instr.mnemonic : Instr → Mnemonic
  | .lbRri .. => .lb
  | .lbRm .. => .lb
  | .lhRri .. => .lh
  | .lhRm .. => .lh
  | .lwRri .. => .lw
  | .lwRm .. => .lw
  | .lbuRri .. => .lbu
  | .lbuRm .. => .lbu
  | .lhuRri .. => .lhu
  | .lhuRm .. => .lhu
  | .sbRri .. => .sb
  | .sbRm .. => .sb
  | .shRri .. => .sh
  | .shRm .. => .sh
  | .swRri .. => .sw
  | .swRm .. => .sw
  | .sll .. => .sll
  | .srl .. => .srl
  | .sra .. => .sra
  | .slli .. => .slli
  | .srli .. => .srli
  | .srai .. => .srai
  | .add .. => .add
  | .sub .. => .sub
  | .and .. => .and
  | .or .. => .or
  | .xor .. => .xor
  | .addi .. => .addi
  | .andi .. => .andi
  | .ori .. => .ori
  | .xori .. => .xori
  | .slt .. => .slt
  | .sltu .. => .sltu
  | .slti .. => .slti
  | .sltiu .. => .sltiu
  | .lui .. => .lui
  | .auipc .. => .auipc
  | .beq .. => .beq
  | .bne .. => .bne
  | .blt .. => .blt
  | .bge .. => .bge
  | .bltu .. => .bltu
  | .bgeu .. => .bgeu
  | .j .. => .j
  | .jalI1 .. => .jal
  | .jalRi .. => .jal
  | .jalr .. => .jalr
  | .ret => .ret
  | .ecall => .ecall
  | .scall => .scall
  | .ebreak => .ebreak
  | .sbreak => .sbreak
  | .nop => .nop

/-- The operand list of an instruction, in the order of R86. -/
def Instr.operands : Instr → List Operand
  | .lbRri a b i => [.reg a, .reg b, .imm i]
  | .lbRm a i b => [.reg a, .mem i b]
  | .lhRri a b i => [.reg a, .reg b, .imm i]
  | .lhRm a i b => [.reg a, .mem i b]
  | .lwRri a b i => [.reg a, .reg b, .imm i]
  | .lwRm a i b => [.reg a, .mem i b]
  | .lbuRri a b i => [.reg a, .reg b, .imm i]
  | .lbuRm a i b => [.reg a, .mem i b]
  | .lhuRri a b i => [.reg a, .reg b, .imm i]
  | .lhuRm a i b => [.reg a, .mem i b]
  | .sbRri a b i => [.reg a, .reg b, .imm i]
  | .sbRm a i b => [.reg a, .mem i b]
  | .shRri a b i => [.reg a, .reg b, .imm i]
  | .shRm a i b => [.reg a, .mem i b]
  | .swRri a b i => [.reg a, .reg b, .imm i]
  | .swRm a i b => [.reg a, .mem i b]
  | .sll a b c => [.reg a, .reg b, .reg c]
  | .srl a b c => [.reg a, .reg b, .reg c]
  | .sra a b c => [.reg a, .reg b, .reg c]
  | .slli a b i => [.reg a, .reg b, .imm i]
  | .srli a b i => [.reg a, .reg b, .imm i]
  | .srai a b i => [.reg a, .reg b, .imm i]
  | .add a b c => [.reg a, .reg b, .reg c]
  | .sub a b c => [.reg a, .reg b, .reg c]
  | .and a b c => [.reg a, .reg b, .reg c]
  | .or a b c => [.reg a, .reg b, .reg c]
  | .xor a b c => [.reg a, .reg b, .reg c]
  | .addi a b i => [.reg a, .reg b, .imm i]
  | .andi ops => ops
  | .ori ops => ops
  | .xori ops => ops
  | .slt a b c => [.reg a, .reg b, .reg c]
  | .sltu a b c => [.reg a, .reg b, .reg c]
  | .slti ops => ops
  | .sltiu ops => ops
  | .lui ops => ops
  | .auipc ops => ops
  | .beq a b i => [.reg a, .reg b, .imm i]
  | .bne a b i => [.reg a, .reg b, .imm i]
  | .blt a b i => [.reg a, .reg b, .imm i]
  | .bge a b i => [.reg a, .reg b, .imm i]
  | .bltu a b i => [.reg a, .reg b, .imm i]
  | .bgeu a b i => [.reg a, .reg b, .imm i]
  | .j i => [.imm i]
  | .jalI1 i => [.imm i]
  | .jalRi a i => [.reg a, .imm i]
  | .jalr a i => [.reg a, .imm i]
  | .ret => []
  | .ecall => []
  | .scall => []
  | .ebreak => []
  | .sbreak => []
  | .nop => []

/-- The Decoded Instruction an instruction stands for (R81). -/
def Instr.decoded (i : Instr) : Decoded where
  name := .known i.mnemonic
  ops := i.operands

/-- The canonical word of an instruction (R85). -/
def encode (i : Instr) : Diw :=
  pack i.decoded

/-! ### The opcode table (R90) -/

/-- The memory-access rows of `spec/opcode_table.json`, its `match` and `mask` as they stand there. -/
def opRowsMemory : List OpRow :=
  [⟨.lb, .rri, 0x1058000000000000, 0xFFFC000000000000⟩,
   ⟨.lb, .rm, 0x1070000000000000, 0xFFFC000000000000⟩,
   ⟨.lh, .rri, 0x1158000000000000, 0xFFFC000000000000⟩,
   ⟨.lh, .rm, 0x1170000000000000, 0xFFFC000000000000⟩,
   ⟨.lw, .rri, 0x1258000000000000, 0xFFFC000000000000⟩,
   ⟨.lw, .rm, 0x1270000000000000, 0xFFFC000000000000⟩,
   ⟨.lbu, .rri, 0x1358000000000000, 0xFFFC000000000000⟩,
   ⟨.lbu, .rm, 0x1370000000000000, 0xFFFC000000000000⟩,
   ⟨.lhu, .rri, 0x1458000000000000, 0xFFFC000000000000⟩,
   ⟨.lhu, .rm, 0x1470000000000000, 0xFFFC000000000000⟩,
   ⟨.sb, .rri, 0x1558000000000000, 0xFFFC000000000000⟩,
   ⟨.sb, .rm, 0x1570000000000000, 0xFFFC000000000000⟩,
   ⟨.sh, .rri, 0x1658000000000000, 0xFFFC000000000000⟩,
   ⟨.sh, .rm, 0x1670000000000000, 0xFFFC000000000000⟩,
   ⟨.sw, .rri, 0x1758000000000000, 0xFFFC000000000000⟩,
   ⟨.sw, .rm, 0x1770000000000000, 0xFFFC000000000000⟩]

/-- The shift rows of `spec/opcode_table.json`, its `match` and `mask` as they stand there. -/
def opRowsShift : List OpRow :=
  [⟨.sll, .r3, 0x2054000000000000, 0xFFFC000000000000⟩,
   ⟨.srl, .r3, 0x2154000000000000, 0xFFFC000000000000⟩,
   ⟨.sra, .r3, 0x2254000000000000, 0xFFFC000000000000⟩,
   ⟨.slli, .rri, 0x2358000000000000, 0xFFFC000000000000⟩,
   ⟨.srli, .rri, 0x2458000000000000, 0xFFFC000000000000⟩,
   ⟨.srai, .rri, 0x2558000000000000, 0xFFFC000000000000⟩]

/-- The arithmetic, logic, compare and unimplemented rows of `spec/opcode_table.json`, its `match` and `mask` as they stand there. -/
def opRowsArith : List OpRow :=
  [⟨.add, .r3, 0x3054000000000000, 0xFFFC000000000000⟩,
   ⟨.sub, .r3, 0x3154000000000000, 0xFFFC000000000000⟩,
   ⟨.and, .r3, 0x3254000000000000, 0xFFFC000000000000⟩,
   ⟨.or, .r3, 0x3354000000000000, 0xFFFC000000000000⟩,
   ⟨.xor, .r3, 0x3454000000000000, 0xFFFC000000000000⟩,
   ⟨.addi, .rri, 0x3558000000000000, 0xFFFC000000000000⟩,
   ⟨.andi, .any, 0x3600000000000000, 0xFF00000000000000⟩,
   ⟨.ori, .any, 0x3700000000000000, 0xFF00000000000000⟩,
   ⟨.xori, .any, 0x3800000000000000, 0xFF00000000000000⟩,
   ⟨.slt, .r3, 0x4054000000000000, 0xFFFC000000000000⟩,
   ⟨.sltu, .r3, 0x4154000000000000, 0xFFFC000000000000⟩,
   ⟨.slti, .any, 0x4200000000000000, 0xFF00000000000000⟩,
   ⟨.sltiu, .any, 0x4300000000000000, 0xFF00000000000000⟩,
   ⟨.lui, .any, 0x5000000000000000, 0xFF00000000000000⟩,
   ⟨.auipc, .any, 0x5100000000000000, 0xFF00000000000000⟩]

/-- The branch rows of `spec/opcode_table.json`, its `match` and `mask` as they stand there. -/
def opRowsBranch : List OpRow :=
  [⟨.beq, .rri, 0x6058000000000000, 0xFFFC000000000000⟩,
   ⟨.bne, .rri, 0x6158000000000000, 0xFFFC000000000000⟩,
   ⟨.blt, .rri, 0x6258000000000000, 0xFFFC000000000000⟩,
   ⟨.bge, .rri, 0x6358000000000000, 0xFFFC000000000000⟩,
   ⟨.bltu, .rri, 0x6458000000000000, 0xFFFC000000000000⟩,
   ⟨.bgeu, .rri, 0x6558000000000000, 0xFFFC000000000000⟩]

/-- The jump and system rows of `spec/opcode_table.json`, its `match` and `mask` as they stand there. -/
def opRowsJumpSystem : List OpRow :=
  [⟨.j, .i1, 0x7080000000000000, 0xFFF0000000000000⟩,
   ⟨.jal, .i1, 0x7180000000000000, 0xFFF0000000000000⟩,
   ⟨.jal, .ri, 0x7160000000000000, 0xFFFC000000000000⟩,
   ⟨.jalr, .ri, 0x7260000000000000, 0xFFFC000000000000⟩,
   ⟨.ret, .n, 0x7300000000000000, 0xFFC0000000000000⟩,
   ⟨.ecall, .n, 0x8000000000000000, 0xFFC0000000000000⟩,
   ⟨.scall, .n, 0x8100000000000000, 0xFFC0000000000000⟩,
   ⟨.ebreak, .n, 0x8200000000000000, 0xFFC0000000000000⟩,
   ⟨.sbreak, .n, 0x8300000000000000, 0xFFC0000000000000⟩,
   ⟨.nop, .n, 0x8400000000000000, 0xFFC0000000000000⟩]

/-- The 53 rows of the opcode table (R90). -/
def opcodeTable : List OpRow :=
  opRowsMemory ++ opRowsShift ++ opRowsArith ++ opRowsBranch ++ opRowsJumpSystem

/-- Does a word match a row (R90)? -/
def OpRow.matches (r : OpRow) (w : Diw) : Bool :=
  w &&& r.mask == r.pattern

/-- The instruction our decoder reads from a table word. A DIW is one 64-bit word delivered whole (R51), so its
bits are the table's bits; bits from `nbits` on are zero. -/
def decodeTableWord (nbits w : Nat) : Option Instr :=
  match decode (BitVec.ofNat 64 (w % 2 ^ nbits)) with
  | .ok i => some i
  | .error _ => none

end Sys2Proof
end

