-- ==== Sys2Proof/Config.lean ====
section
/-! DEFINITION. What an implementation fixes (spec/00_scope.md R5, the OPEN parameters of spec/92_eei_decisions.md)
and the free values: the collaborators' moves that the spec leaves open. -/

namespace Sys2Proof

/-- Byte order of 2- and 4-byte data accesses (`ENDIAN`, R54). -/
inductive Endian where
  | little | big
  deriving DecidableEq, Repr

/-- What the Memory collaborator does with a misaligned data access (`MISALIGNED`, R55). -/
inductive Misaligned where
  | fault | bytewise
  deriving DecidableEq, Repr

/-- The two kinds of data access (R59). -/
inductive Access where
  | read | write
  deriving DecidableEq, Repr

/-- A range of D-space bytes that exists, and the accesses the Memory collaborator grants there (R58, R59). -/
structure Region where
  base : Nat
  size : Nat
  readable : Bool := true
  writable : Bool := true
  deriving DecidableEq, Repr

/-- Where the Memory collaborator's verdict `Admits` on a data access comes from (R59): from the regions, or from a
collaborator about whose refusals nothing is known (log 7). -/
inductive Admission where
  | regions | host
  deriving DecidableEq, Repr

/-- The Syscall Handler (R236, R239): the reference one, or one about which nothing is known but its frame. -/
inductive SyscallHandler where
  | reference | host
  deriving DecidableEq, Repr

/-- The Debug Session (R238): one that only inspects, or one after which registers and memory are arbitrary. -/
inductive DebugSession where
  | inspect | mayChange
  deriving DecidableEq, Repr

/-- The parameters of R5. They are carried in State and no step changes them (log 4). -/
structure Platform where
  /-- `X0_HARDWIRED` (R22). -/
  x0Hardwired : Bool := true
  /-- `REG_RA` (R23). -/
  regRa : RegIdx := 1
  /-- `REG_SP` (R23). -/
  regSp : RegIdx := 2
  /-- `REG_ARG0` (R23). -/
  regArg0 : RegIdx := 10
  /-- `REG_SYSNO` (R23). -/
  regSysno : RegIdx := 17
  /-- `IUNIT` (R26). -/
  iunit : Word := 1
  /-- `ENDIAN` (R54). -/
  endian : Endian := .little
  /-- `MISALIGNED` (R55). -/
  misaligned : Misaligned := .fault
  /-- Where the verdict `Admits` on a data access comes from (R59, log 7). -/
  admission : Admission := .regions
  /-- The D-space map behind `Admits` (R59), read where the verdict comes from it; the default is the reference
  platform's (R61). -/
  dspace : List Region := [{ base := 0x10000, size := 0x10000 }]
  /-- The Syscall Handler's behaviour (R236). -/
  syscall : SyscallHandler := .reference
  /-- The Debug Session's behaviour (R238). -/
  debug : DebugSession := .inspect
  /-- The number of the hand-off from which a collaborator never returns (R127, R294); `none`: every one returns (log 10). -/
  blocksAt : Option Nat := none
  deriving DecidableEq, Repr

/-- The configuration captured at construction (R31). -/
structure Cfg where
  addSyscallSymbols : Bool
  debugOnFault : Bool
  deriving DecidableEq, Repr

/-- The Loaded Executable (R11, R286). -/
structure LoadedExecutable where
  runPointer : Word
  stackPointer : Word
  heapPointer : Word
  deriving DecidableEq, Repr

/-- What the Syscall Handler sees beside the syscall number: the register file, D-space and the execution state, through
the handles of R235 and with the pc already advanced (R124). It is not given the cycle counter, which R28 shows to the
Debug Session and a final observer only, nor `cfg.add_syscall_symbols`, which has no effect on any state (R31).
R236's relation ranges over the number, the registers and D-space; that a reply may depend on the rest too is log 6's,
and that the rest includes `cfg.debug_on_fault` is log 18's (DESIGN CHOICE). -/
structure SyscallView where
  regs : Vector Word 32
  dmem : List Host.Cell
  pc : Word
  exit : Bool
  exitCode : Word
  debugOnFault : Bool
  deriving DecidableEq, Repr

/-- What the Debug Session is given to read: the engine state, D-space and the register file (R237, R28). DESIGN CHOICE
(log 18): the configuration is part of the engine state handed over. -/
structure DebugView where
  regs : Vector Word 32
  dmem : List Host.Cell
  pc : Word
  cycle : BitVec 64
  exit : Bool
  exitCode : Word
  cfg : Cfg
  deriving DecidableEq, Repr

/-- What a collaborator writes through its handles: registers and D-space bytes, in order (R236). -/
structure HostWrites where
  regs : List (RegIdx × Word)
  bytes : List (Word × Byte)
  deriving DecidableEq, Repr, Inhabited

/-- The text of a syscall fault. The reference handler's one text is named; another handler's is a token (log 14). -/
inductive SyscallText where
  | unknownSyscall
  | other (token : Nat)
  deriving DecidableEq, Repr, Inhabited

/-- What one call of the Syscall Handler does (R236): its writes, whether it sets `exit`, the `exit_code` it
writes, and the syscall fault it raises after that, if any. -/
structure HostReply where
  writes : HostWrites
  setsExit : Bool
  exitCode : Option Word
  failure : Option SyscallText
  deriving DecidableEq, Repr, Inhabited

/-- FREE VALUE (log 7). The Memory collaborator's verdict on a data access: R59 says "a predicate of the memory,
`Admits(kind, a, n)`". It is applied to D-space, the kind, the address and the width, so that an access may be refused
as a whole, by its width or by what memory holds. No body, so nothing is known of it. -/
opaque Config.admits : List Host.Cell → Access → Word → Nat → Bool

/-- FREE VALUE (log 6). What the Syscall Handler does on the given hand-off, for the given syscall number and
all that the handler sees: R236 says "a relation ... about which it assumes nothing else". No body, so
nothing is known of it. -/
opaque Config.syscallReply : Nat → Word → SyscallView → HostReply

/-- FREE VALUE (log 9). What a Debug Session that may change state writes on the given hand-off (R238: "registers and
memory are arbitrary"). No body, so nothing is known of it. -/
opaque Config.debugWrites : Nat → DebugView → HostWrites

end Sys2Proof
end

