-- ==== Sys2Proof/Machine/State.lean ====
section
/-! DEFINITION. The state of the machine (spec/10_state.md R20), the reasons a step can stop, and reset (R38). -/

namespace Sys2Proof.Machine

/-- The four recoverable faults (R251 to R254). -/
inductive FaultKind where
  | memoryFault | malformedInstruction | unimplementedInstruction | syscallFault
  deriving DecidableEq, Repr

/-- The one condition that is no fault (R256). -/
inductive Defect where
  | internalDefect
  deriving DecidableEq, Repr

/-- Why a run has halted (R32). -/
inductive HaltReason where
  | exitFlag
  | fault (k : FaultKind)
  | neverStarted
  deriving DecidableEq, Repr

/-- The run status (R32). -/
inductive Status where
  | idle
  | running
  | halted (r : HaltReason)
  | aborted (d : Defect)
  deriving DecidableEq, Repr

/-- Why the Debug Session is launched (R237). -/
inductive DebugReason where
  | breakpoint | fault
  deriving DecidableEq, Repr

/-- What a fault's message says (R257). Its wording is not architected; this is its content (log 14). -/
inductive FaultMessage where
  | badAddress (a : Word)
  | operandCount
  | operandKind
  | unimplemented (m : Mnemonic)
  | syscall (t : SyscallText)
  deriving DecidableEq, Repr

/-- The four output events (R258). `exitReport` carries the 32-bit exit code, read as signed (R30). -/
inductive Event where
  | syscallIssued (number : Word)
  | debugLaunched (reason : DebugReason) (pc : Word)
  | faultReport (faultPc : Word) (instr : Option Decoded) (kind : FaultKind) (message : FaultMessage)
  | exitReport (exitCode : Word)
  deriving DecidableEq, Repr

/-- D-space contents: (address, byte) pairs, addresses strictly rising, none equal to what an unlisted
address reads as (R50). -/
abbrev Memory := List Host.Cell

/-- The instruction store: (address, word) pairs, addresses strictly rising; no instruction elsewhere (R50, R51, R60). -/
abbrev IMem := List (Nat × Diw)

/-- The architectural state (R20), the parameters of the run (R10) and the model's own hand-off counter (log 6). -/
structure State where
  /-- `x[0]` .. `x[31]` (R21); read and written through `State.reg` and `State.setReg` only. -/
  regs : Vector Word 32
  /-- The program counter (R25). -/
  pc : Word
  /-- The cycle counter (R28). -/
  cycle : BitVec 64
  /-- The exit flag (R29). -/
  exit : Bool
  /-- The exit code, 32 bits signed (R30). -/
  exitCode : Word
  /-- The configuration (R31). -/
  cfg : Cfg
  /-- The run status (R32). -/
  status : Status
  /-- Data memory (R36, R50). -/
  dmem : Memory
  /-- The output trace, oldest event first (R258). -/
  trace : List Event
  /-- The instruction store, fixed for the run (R60). -/
  imem : IMem
  /-- The Loaded Executable, consumed at run start (R286). -/
  loaded : LoadedExecutable
  /-- The parameters of R5 (log 4). -/
  platform : Platform
  /-- The MODEL'S OWN: how many hand-offs to a collaborator have been made; indexes the free values (log 6). -/
  hostCalls : Nat
  deriving DecidableEq, Repr

/-- Why a step stops without a next state. -/
inductive Fault where
  /-- Raised by `step` when the run has ended: no rule leaves `Halted` or `Aborted` (R32). SAFE: nothing is claimed
  of a step the spec does not have (log 11). -/
  | runEnded
  /-- Raised by every hand-off to a collaborator that never returns (R127, R294): the run has no end state. A stuck
  state. SAFE: raised only where the parameter `blocksAt` says so (log 10). -/
  | collaboratorNeverReturns
  deriving DecidableEq, Repr

/-- Why an instruction has no meaning in the model. -/
inductive Refusal where
  /-- Raised by no instruction: every row of the opcode table has its meaning. SAFE: it would stop. -/
  | notModelled (mnemonic : String)
  deriving DecidableEq, Repr

/-- The machine as constructed (R285): `Idle`, nothing run yet. `pc` and the registers have no specified value
until run start; DESIGN CHOICE 0 (log 1). The platform, the flags and the triple are the reference ones (log 2, log 4, log 5). -/
def State.constructed : State where
  regs := Vector.replicate 32 0
  pc := 0
  cycle := 0
  exit := false
  exitCode := 0
  cfg := { addSyscallSymbols := false, debugOnFault := false }
  status := .idle
  dmem := []
  trace := []
  imem := []
  loaded := { runPointer := 0x100, stackPointer := 0x20000, heapPointer := 0x18000 }
  platform := {}
  hostCalls := 0

/-- The machine right after reset (R38): constructed, and run start done, at the moment the first loop iteration
begins. The seeded values are the reference Loader's (R61, log 5); every other register is 0 (log 1). -/
def State.reset : State where
  regs := ((Vector.replicate 32 0).set 2 0x20000).set 10 0x18000
  pc := 0x100
  cycle := 0
  exit := false
  exitCode := 0
  cfg := { addSyscallSymbols := false, debugOnFault := false }
  status := .running
  dmem := []
  trace := []
  imem := []
  loaded := { runPointer := 0x100, stackPointer := 0x20000, heapPointer := 0x18000 }
  platform := {}
  hostCalls := 0

end Sys2Proof.Machine
end

