-- ==== Sys2Proof/Machine/Ops.lean ====
section
/-! DEFINITION. The named operations over the state: registers, D-space, the instruction store, the output trace,
the hand-offs to the collaborators, taking a fault, and run start. -/

namespace Sys2Proof.Machine

/-! ### Values (R6) -/

/-- `unsigned(v)`. -/
def unsigned (v : Word) : Int := v.toNat

/-- `signed(v)`. -/
def signed (v : Word) : Int := v.toInt

/-- `word(n)`: the word whose unsigned reading is `n` modulo 2^32. -/
def word (n : Int) : Word := BitVec.ofInt 32 n

/-! ### General registers (R21, R22) -/

/-- Is register `i` hardwired to zero (R22)? -/
def State.isZeroReg (s : State) (i : RegIdx) : Bool :=
  s.platform.x0Hardwired && i == 0

/-- `x[i]` read: zero at index 0 where `X0_HARDWIRED` (R21, R22). -/
def State.reg (s : State) (i : RegIdx) : Word :=
  if s.isZeroReg i then 0 else s.regs[i.toNat]'i.isLt

/-- `x[i] <- v`: no effect at index 0 where `X0_HARDWIRED` (R21, R22). -/
def State.setReg (s : State) (i : RegIdx) (v : Word) : State :=
  if s.isZeroReg i then s else { s with regs := s.regs.set i.toNat v i.isLt }

/-- `pc <- t` (R25). -/
def State.setPc (s : State) (t : Word) : State :=
  { s with pc := t }

/-- `emit E`: append an event to the output trace (R258). -/
def State.emit (s : State) (e : Event) : State :=
  { s with trace := s.trace ++ [e] }

/-! ### D-space (R50 to R59) -/

/-- What an unlisted byte of D-space reads as: 0 on the reference platform (R61, log 3). -/
def Memory.fill : Byte := 0

/-- The byte at an address. -/
def Memory.lookup : Memory → Nat → Byte
  | [], _ => Memory.fill
  | (k, b) :: m, a => if k = a then b else Memory.lookup m a

/-- Writing one byte, keeping the canonical form. -/
def Memory.store : Memory → Nat → Byte → Memory
  | [], a, v => if v = Memory.fill then [] else [(a, v)]
  | (k, b) :: m, a, v =>
    if a < k then (if v = Memory.fill then (k, b) :: m else (a, v) :: (k, b) :: m)
    else if a = k then (if v = Memory.fill then m else (a, v) :: m)
    else (k, b) :: Memory.store m a v

/-- Every address of the list is above `a`. -/
def Memory.above (a : Nat) (m : Memory) : Bool :=
  m.all (fun c => decide (a < c.1))

/-- The canonical form of D-space: addresses strictly rising and below 2^32, no byte equal to `fill`. -/
def Memory.wf : Memory → Bool
  | [] => true
  | (k, b) :: m => Memory.above k m && decide (k < 2 ^ 32) && (b != Memory.fill) && Memory.wf m

/-- The address `word(unsigned(a) + k)` (R52, R53). -/
def byteAddr (a : Word) (k : Nat) : Word :=
  a + BitVec.ofNat 32 k

/-- The byte of D-space at an address. -/
def State.byteAt (s : State) (a : Word) : Byte :=
  Memory.lookup s.dmem a.toNat

/-- Does this region hold the address? -/
def regionHas (r : Region) (a : Nat) : Bool :=
  decide (r.base ≤ a) && decide (a < r.base + r.size)

/-- Does D-space exist at this address (R58)? Where nothing is known of the Memory collaborator's refusals, at every one
(log 7). -/
def mappedAt (p : Platform) (a : Nat) : Bool :=
  match p.admission with
  | .regions => p.dspace.any (fun r => regionHas r a)
  | .host => true

/-- Do the regions grant this kind of access to the byte at this address (R59)? -/
def grants (p : Platform) (k : Access) (a : Nat) : Bool :=
  p.dspace.any (fun r => regionHas r a && (match k with | .read => r.readable | .write => r.writable))

/-- The alignment test of the Memory collaborator (R55). -/
def alignedFor (p : Platform) (a : Word) (n : Nat) : Bool :=
  match p.misaligned with
  | .bytewise => true
  | .fault => a.toNat % n == 0

/-- `Admits(kind, a, n)` for a data access (R59, log 7): the alignment test passes, and the regions grant every one of its
bytes, or the collaborator about which nothing is known admits the access. -/
def State.admits (s : State) (k : Access) (a : Word) (n : Nat) : Bool :=
  alignedFor s.platform a n &&
    match s.platform.admission with
    | .regions => (List.range n).all (fun j => grants s.platform k (byteAddr a j).toNat)
    | .host => Config.admits s.dmem k a n

/-- The value of bytes, the first the least significant. -/
def fromBytes : List Byte → Nat
  | [] => 0
  | b :: bs => b.toNat + 256 * fromBytes bs

/-- The `n` bytes of a value, the least significant first. -/
def toBytes (n : Nat) (v : BitVec (8 * n)) : List Byte :=
  (List.range n).map (fun k => v.extractLsb' (8 * k) 8)

/-- Bytes in address order from bytes in order of significance, and back (`ENDIAN`, R54). -/
def inOrder (e : Endian) (bs : List Byte) : List Byte :=
  match e with
  | .little => bs
  | .big => bs.reverse

/-- The `n` bytes of D-space from address `a` on (R52). -/
def State.bytesAt (s : State) (a : Word) (n : Nat) : List Byte :=
  (List.range n).map (fun k => s.byteAt (byteAddr a k))

/-- Writing bytes at consecutive addresses from `a` on, modulo 2^32 (R53). -/
def Memory.storeBytes : Memory → Word → List Byte → Memory
  | m, _, [] => m
  | m, a, b :: bs => Memory.storeBytes (Memory.store m a.toNat b) (a + 1) bs

/-- `MemRead(a, n)` (R52, R54); `none`: the collaborator replies `MemoryFault`. -/
def State.memRead (s : State) (a : Word) (n : Nat) : Option (BitVec (8 * n)) :=
  if s.admits .read a n then some (BitVec.ofNat (8 * n) (fromBytes (inOrder s.platform.endian (s.bytesAt a n))))
  else none

/-- `MemWrite(a, n, v)` (R53, R54); `none`: the collaborator replies `MemoryFault` and no byte has changed. -/
def State.memWrite (s : State) (a : Word) (n : Nat) (v : BitVec (8 * n)) : Option State :=
  if s.admits .write a n then
    some { s with dmem := Memory.storeBytes s.dmem a (inOrder s.platform.endian (toBytes n v)) }
  else none

/-! ### The instruction store (R51, R60) -/

/-- The word at an instruction address; `none`: there is no instruction. -/
def IMem.lookup : IMem → Nat → Option Diw
  | [], _ => none
  | (k, w) :: m, a => if k = a then some w else IMem.lookup m a

/-- Placing a word at an instruction address (the Loader's work, never an instruction's). -/
def IMem.place : IMem → Nat → Diw → IMem
  | [], a, v => [(a, v)]
  | (k, w) :: m, a, v =>
    if a < k then (a, v) :: (k, w) :: m
    else if a = k then (a, v) :: m
    else (k, w) :: IMem.place m a v

/-- The canonical form of the instruction store: addresses strictly rising and below 2^32. -/
def IMem.wf : IMem → Bool
  | [] => true
  | (k, _) :: m => m.all (fun c => decide (k < c.1)) && decide (k < 2 ^ 32) && IMem.wf m

/-- `FetchInstr(a)` (R51); `none`: the collaborator replies `MemoryFault`. -/
def State.fetchInstr (s : State) (a : Word) : Option Diw :=
  IMem.lookup s.imem a.toNat

/-! ### The loop's own writes (R113, R115) and the end of a run (R122) -/

/-- Action 1 of a step: the cycle counter (R113). -/
def State.countCycle (s : State) : State :=
  { s with cycle := s.cycle + 1 }

/-- Action 3 of a step: `pc <- word(unsigned(pc) + IUNIT)` (R115, R27). -/
def State.advancePc (s : State) : State :=
  { s with pc := word (unsigned s.pc + unsigned s.platform.iunit) }

/-- The loop has ended: the status, and the report of the exit code (R110, R122). -/
def State.endRun (s : State) (r : HaltReason) : State :=
  { (s.emit (.exitReport s.exitCode)) with status := .halted r }

/-! ### The hand-offs (R235 to R239) -/

/-- The register file as it reads (R21, R22). -/
def State.regFile (s : State) : Vector Word 32 :=
  Vector.ofFn (fun i : Fin 32 => s.reg (BitVec.ofFin i))

/-- What the Syscall Handler sees (R235, R124, log 6). -/
def State.syscallView (s : State) : SyscallView where
  regs := s.regFile
  dmem := s.dmem
  pc := s.pc
  exit := s.exit
  exitCode := s.exitCode
  debugOnFault := s.cfg.debugOnFault

/-- What the Debug Session is given to read (R237, log 18). -/
def State.debugView (s : State) : DebugView where
  regs := s.regFile
  dmem := s.dmem
  pc := s.pc
  cycle := s.cycle
  exit := s.exit
  exitCode := s.exitCode
  cfg := s.cfg

/-- One byte written by a collaborator: only where D-space exists (log 8). -/
def State.hostByte (s : State) (c : Word × Byte) : State :=
  if mappedAt s.platform c.1.toNat then { s with dmem := Memory.store s.dmem c.1.toNat c.2 } else s

/-- A collaborator's writes to registers and D-space (R236), register writes under R22. -/
def State.hostWrites (s : State) (w : HostWrites) : State :=
  w.bytes.foldl State.hostByte (w.regs.foldl (fun t c => t.setReg c.1 c.2) s)

/-- The next hand-off's number is taken. -/
def State.countHandoff (s : State) : State :=
  { s with hostCalls := s.hostCalls + 1 }

/-- Does the next collaborator called never return (R127, R294, log 10)? -/
def State.blocked (s : State) : Bool :=
  s.platform.blocksAt == some s.hostCalls

/-- The effect of a Debug Session on the state (R238, log 9). -/
def State.debugEffect (s : State) : State :=
  match s.platform.debug with
  | .inspect => s.countHandoff
  | .mayChange => s.countHandoff.hostWrites (Config.debugWrites s.hostCalls s.debugView)

/-- The debug hand-off (R237): the event, then the session. -/
def debugLaunch (reason : DebugReason) (s : State) : Host.Outcome State Fault Refusal :=
  if s.blocked then .fault .collaboratorNeverReturns
  else .next (s.emit (.debugLaunched reason s.pc)).debugEffect

/-! ### Taking a fault (R250, R257, R259) -/

/-- The fault codes of the status port (R255). -/
def FaultKind.code : FaultKind → Nat
  | .memoryFault => 1
  | .malformedInstruction => 2
  | .unimplementedInstruction => 3
  | .syscallFault => 4

/-- The code of the internal defect (R255). -/
def Defect.code : Defect → Nat
  | .internalDefect => 15

/-- TAKING A FAULT: `HandleFault` (R259) and the end of the loop (R110, R121): the report, the Debug Session if
`cfg.debug_on_fault` (R264), the status, the exit report. Nothing is saved in a register, no mode changes and
there is no handler address (R262); there is no return from a fault (R263). -/
def handleFault (faultPc : Word) (instr : Option Decoded) (kind : FaultKind) (message : FaultMessage) (s : State) :
    Host.Outcome State Fault Refusal :=
  if s.cfg.debugOnFault then
    match debugLaunch .fault (s.emit (.faultReport faultPc instr kind message)) with
    | .next t => .next (t.endRun (.fault kind))
    | .fault f => .fault f
    | .refused r => .refused r
  else .next ((s.emit (.faultReport faultPc instr kind message)).endRun (.fault kind))

/-- The address of the executing instruction, from the advanced pc (R257: "for a fault in the handler this is
`pc - IUNIT`"). -/
def State.instrAddr (s : State) : Word :=
  word (unsigned s.pc - unsigned s.platform.iunit)

/-- `raise F` in the handler of instruction `i` (R250, R257). -/
def raise (i : Instr) (kind : FaultKind) (message : FaultMessage) (s : State) : Host.Outcome State Fault Refusal :=
  handleFault s.instrAddr (some i.decoded) kind message s

/-- What dispatch does with a decoded instruction that is none of the table: the abort (R118, R256) or the
malformed-instruction fault (R92, R119). -/
def rejectDecoded (d : Decoded) (r : Reject) (s : State) : Host.Outcome State Fault Refusal :=
  match r with
  | .unregistered _ => .next { s with status := .aborted .internalDefect }
  | .operandCount _ => handleFault s.instrAddr (some d) .malformedInstruction .operandCount s
  | .operandKind _ => handleFault s.instrAddr (some d) .malformedInstruction .operandKind s

/-! ### The syscall hand-off (R235, R236, R239) -/

/-- The exit call of the reference Syscall Handler (R239). -/
def referenceExit : Word := 93

/-- The reference Syscall Handler (R239). -/
def referenceReply (number : Word) (s : State) : HostReply :=
  if number = referenceExit then
    { writes := { regs := [], bytes := [] }, setsExit := true, exitCode := some (s.reg s.platform.regArg0), failure := none }
  else { writes := { regs := [], bytes := [] }, setsExit := false, exitCode := none, failure := some .unknownSyscall }

/-- What the Syscall Handler does on this hand-off (R236, R239, log 6). -/
def syscallReply (number : Word) (s : State) : HostReply :=
  match s.platform.syscall with
  | .reference => referenceReply number s
  | .host => Config.syscallReply s.hostCalls number s.syscallView

/-- The effect of the handler's reply, its frame being R236: registers, D-space, `exit` set and never cleared
(R29), `exit_code`. -/
def State.syscallEffect (s : State) (r : HostReply) : State :=
  let t := s.countHandoff.hostWrites r.writes
  { t with exit := t.exit || r.setsExit, exitCode := r.exitCode.getD t.exitCode }

/-- The syscall number: `x[REG_SYSNO]` (R235). -/
def State.syscallNumber (s : State) : Word :=
  s.reg s.platform.regSysno

/-- `SysHandle` (R235): the event, the handler, and the relay of its fault (R254): what it changed before raising
stays changed. -/
def sysHandle (i : Instr) (s : State) : Host.Outcome State Fault Refusal :=
  if s.blocked then .fault .collaboratorNeverReturns
  else
    let r := syscallReply s.syscallNumber s
    let t := (s.emit (.syscallIssued s.syscallNumber)).syscallEffect r
    match r.failure with
    | none => .next t
    | some text => raise i .syscallFault (.syscall text) t

/-! ### Run start (R286, R123) -/

/-- `RunStart(le)` (R286): `pc` and two registers from the Loaded Executable. -/
def State.seed (s : State) : State :=
  ((s.setPc s.loaded.runPointer).setReg s.platform.regSp s.loaded.stackPointer).setReg s.platform.regArg0 s.loaded.heapPointer

/-- The beginning of `Run` (R110): the seeding, and the entry test on the signed run pointer (R123). -/
def runStart (s : State) : State :=
  if signed s.loaded.runPointer ≤ 0 then s.seed.endRun .neverStarted
  else { s.seed with status := .running }

end Sys2Proof.Machine
end

