-- ==== Sys2Proof/Machine/Flags.lean ====
section
/-! DEFINITION. Comparisons. There are no flags, condition codes or predicate registers (R33): a comparison is used at once by a branch (R205) or written to a general register by `slt` and `sltu` (R182, R183). -/

namespace Sys2Proof.Machine

/-- `a = b`, the two words (R206). -/
def condEq (a b : Word) : Bool := a == b

/-- `a <s b` (R208, R182). -/
def condLt (a b : Word) : Bool := decide (signed a < signed b)

/-- `a <u b` (R210, R183). -/
def condLtu (a b : Word) : Bool := decide (unsigned a < unsigned b)

/-- The word 1 for true and 0 for false (R182, decision D18). -/
def truthWord (c : Bool) : Word := if c then 1 else 0

end Sys2Proof.Machine
end

