-- ==== Sys2Proof/Machine/Operands.lean ====
section
/-! DEFINITION. Operand values: the effective address, the shift distance, and the shape of a result written to one register. -/

namespace Sys2Proof.Machine

/-- The effective address (R57, R140): base plus offset, modulo 2^32. Both memory forms resolve through it (R89). -/
def State.effectiveAddress (s : State) (base : RegIdx) (offset : Word) : Word :=
  word (unsigned (s.reg base) + unsigned offset)

/-- The shift distance (R160): the low 5 bits, `0..31`. -/
def shiftDistance (v : Word) : Nat :=
  (v.extractLsb' 0 5).toNat

/-- An instruction that writes one register and nothing else (R175). -/
def writeResult (rd : RegIdx) (v : Word) (s : State) : Host.Outcome State Fault Refusal :=
  .next (s.setReg rd v)

end Sys2Proof.Machine
end

