-- ==== Sys2Proof/Machine/ArithLogic.lean ====
section
/-! DEFINITION. Arithmetic, logic and compare instructions (spec/43_arith_logic.md): the implemented ones, and the seven that only raise their fault. -/

namespace Sys2Proof.Machine

/-- `add rd, rs1, rs2` (R176). -/
def execAdd (rd rs1 rs2 : RegIdx) (s : State) : Host.Outcome State Fault Refusal :=
  writeResult rd (word (unsigned (s.reg rs1) + unsigned (s.reg rs2))) s

/-- `sub rd, rs1, rs2` (R177). -/
def execSub (rd rs1 rs2 : RegIdx) (s : State) : Host.Outcome State Fault Refusal :=
  writeResult rd (word (unsigned (s.reg rs1) - unsigned (s.reg rs2))) s

/-- `and rd, rs1, rs2` (R178). -/
def execAnd (rd rs1 rs2 : RegIdx) (s : State) : Host.Outcome State Fault Refusal :=
  writeResult rd (s.reg rs1 &&& s.reg rs2) s

/-- `or rd, rs1, rs2` (R179). -/
def execOr (rd rs1 rs2 : RegIdx) (s : State) : Host.Outcome State Fault Refusal :=
  writeResult rd (s.reg rs1 ||| s.reg rs2) s

/-- `xor rd, rs1, rs2` (R180). -/
def execXor (rd rs1 rs2 : RegIdx) (s : State) : Host.Outcome State Fault Refusal :=
  writeResult rd (s.reg rs1 ^^^ s.reg rs2) s

/-- `slt rd, rs1, rs2` (R182). -/
def execSlt (rd rs1 rs2 : RegIdx) (s : State) : Host.Outcome State Fault Refusal :=
  writeResult rd (truthWord (condLt (s.reg rs1) (s.reg rs2))) s

/-- `sltu rd, rs1, rs2` (R183). -/
def execSltu (rd rs1 rs2 : RegIdx) (s : State) : Host.Outcome State Fault Refusal :=
  writeResult rd (truthWord (condLtu (s.reg rs1) (s.reg rs2))) s

/-- `addi rd, rs1, imm` (R181). -/
def execAddi (rd rs1 : RegIdx) (imm : Word) (s : State) : Host.Outcome State Fault Refusal :=
  writeResult rd (word (unsigned (s.reg rs1) + unsigned imm)) s

/-- The handler of the seven (R184): `raise UnimplementedInstruction(m)`, whatever the operands. -/
def unimplemented (i : Instr) (s : State) : Host.Outcome State Fault Refusal :=
  raise i .unimplementedInstruction (.unimplemented i.mnemonic) s

/-- `andi` raises its fault (R189). -/
def execAndi (ops : List Operand) (s : State) : Host.Outcome State Fault Refusal :=
  unimplemented (.andi ops) s

/-- `ori` raises its fault (R188). -/
def execOri (ops : List Operand) (s : State) : Host.Outcome State Fault Refusal :=
  unimplemented (.ori ops) s

/-- `xori` raises its fault (R187). -/
def execXori (ops : List Operand) (s : State) : Host.Outcome State Fault Refusal :=
  unimplemented (.xori ops) s

/-- `slti` raises its fault (R190). -/
def execSlti (ops : List Operand) (s : State) : Host.Outcome State Fault Refusal :=
  unimplemented (.slti ops) s

/-- `sltiu` raises its fault (R191). -/
def execSltiu (ops : List Operand) (s : State) : Host.Outcome State Fault Refusal :=
  unimplemented (.sltiu ops) s

/-- `lui` raises its fault (R185). -/
def execLui (ops : List Operand) (s : State) : Host.Outcome State Fault Refusal :=
  unimplemented (.lui ops) s

/-- `auipc` raises its fault (R186). -/
def execAuipc (ops : List Operand) (s : State) : Host.Outcome State Fault Refusal :=
  unimplemented (.auipc ops) s

end Sys2Proof.Machine
end

