-- ==== Sys2Proof/Machine/Branch.lean ====
section
/-! DEFINITION. Branch instructions (spec/44_branch.md). -/

namespace Sys2Proof.Machine

/-- The shape of every branch (R205): the absolute target, or the pc stays the advanced pc. -/
def branchIf (c : Bool) (target : Word) (s : State) : Host.Outcome State Fault Refusal :=
  .next (if c then s.setPc target else s)

/-- `beq rs1, rs2, target` (R206). -/
def execBeq (rs1 rs2 : RegIdx) (target : Word) (s : State) : Host.Outcome State Fault Refusal :=
  branchIf (condEq (s.reg rs1) (s.reg rs2)) target s

/-- `bne rs1, rs2, target` (R207). -/
def execBne (rs1 rs2 : RegIdx) (target : Word) (s : State) : Host.Outcome State Fault Refusal :=
  branchIf (!(condEq (s.reg rs1) (s.reg rs2))) target s

/-- `blt rs1, rs2, target` (R208). -/
def execBlt (rs1 rs2 : RegIdx) (target : Word) (s : State) : Host.Outcome State Fault Refusal :=
  branchIf (condLt (s.reg rs1) (s.reg rs2)) target s

/-- `bge rs1, rs2, target` (R209). -/
def execBge (rs1 rs2 : RegIdx) (target : Word) (s : State) : Host.Outcome State Fault Refusal :=
  branchIf (!(condLt (s.reg rs1) (s.reg rs2))) target s

/-- `bltu rs1, rs2, target` (R210). -/
def execBltu (rs1 rs2 : RegIdx) (target : Word) (s : State) : Host.Outcome State Fault Refusal :=
  branchIf (condLtu (s.reg rs1) (s.reg rs2)) target s

/-- `bgeu rs1, rs2, target` (R211). -/
def execBgeu (rs1 rs2 : RegIdx) (target : Word) (s : State) : Host.Outcome State Fault Refusal :=
  branchIf (!(condLtu (s.reg rs1) (s.reg rs2))) target s

end Sys2Proof.Machine
end

