-- ==== Sys2Proof/Machine/Jump.lean ====
section
/-! DEFINITION. Jump instructions (spec/45_jump.md). -/

namespace Sys2Proof.Machine

/-- Link, then jump (R221, R222): the link value is the advanced pc (R224). -/
def linkAndJump (rd : RegIdx) (target : Word) (s : State) : Host.Outcome State Fault Refusal :=
  .next ((s.setReg rd s.pc).setPc target)

/-- `j target` (R220). -/
def execJ (target : Word) (s : State) : Host.Outcome State Fault Refusal :=
  .next (s.setPc target)

/-- `jal target` (form I1): the link register is `REG_RA` (R221). -/
def execJalI1 (target : Word) (s : State) : Host.Outcome State Fault Refusal :=
  linkAndJump s.platform.regRa target s

/-- `jal rd, target` (form RI) (R221). -/
def execJalRi (rd : RegIdx) (target : Word) (s : State) : Host.Outcome State Fault Refusal :=
  linkAndJump rd target s

/-- `jalr rd, target` (form RI): the target is an absolute immediate (R222). -/
def execJalr (rd : RegIdx) (target : Word) (s : State) : Host.Outcome State Fault Refusal :=
  linkAndJump rd target s

/-- `ret`: the bit pattern of `x[REG_RA]` becomes the pc (R223). -/
def execRet (s : State) : Host.Outcome State Fault Refusal :=
  .next (s.setPc (s.reg s.platform.regRa))

end Sys2Proof.Machine
end

