-- ==== Sys2Proof/Machine/MemAccess.lean ====
section
/-! DEFINITION. Memory-access instructions (spec/41_memory_access.md). -/

namespace Sys2Proof.Machine

/-- A load of `n` bytes (R141 to R145): one read transaction, then the extended value to the destination. A refused
read raises `MemoryFault` and writes no register (R149). -/
def load (i : Instr) (n : Nat) (extend : BitVec (8 * n) → Word) (rd base : RegIdx) (offset : Word) (s : State) :
    Host.Outcome State Fault Refusal :=
  match s.memRead (s.effectiveAddress base offset) n with
  | some v => .next (s.setReg rd (extend v))
  | none => raise i .memoryFault (.badAddress (s.effectiveAddress base offset)) s

/-- A store of the low `n` bytes of the source register (R146 to R148): one write transaction. A refused write
raises `MemoryFault` and changes no byte (R53, R149). -/
def store (i : Instr) (n : Nat) (src base : RegIdx) (offset : Word) (s : State) : Host.Outcome State Fault Refusal :=
  match s.memWrite (s.effectiveAddress base offset) n ((s.reg src).setWidth (8 * n)) with
  | some t => .next t
  | none => raise i .memoryFault (.badAddress (s.effectiveAddress base offset)) s

/-- `lb rd, rs1, imm` (form RRI): sign-extended byte (R141). -/
def execLbRri (rd rs1 : RegIdx) (imm : Word) (s : State) : Host.Outcome State Fault Refusal :=
  load (.lbRri rd rs1 imm) 1 (fun v => v.signExtend 32) rd rs1 imm s

/-- `lb rd, imm(rs1)` (form RM): sign-extended byte (R141). -/
def execLbRm (rd : RegIdx) (imm : Word) (rs1 : RegIdx) (s : State) : Host.Outcome State Fault Refusal :=
  load (.lbRm rd imm rs1) 1 (fun v => v.signExtend 32) rd rs1 imm s

/-- `lh rd, rs1, imm` (form RRI): sign-extended halfword (R142). -/
def execLhRri (rd rs1 : RegIdx) (imm : Word) (s : State) : Host.Outcome State Fault Refusal :=
  load (.lhRri rd rs1 imm) 2 (fun v => v.signExtend 32) rd rs1 imm s

/-- `lh rd, imm(rs1)` (form RM): sign-extended halfword (R142). -/
def execLhRm (rd : RegIdx) (imm : Word) (rs1 : RegIdx) (s : State) : Host.Outcome State Fault Refusal :=
  load (.lhRm rd imm rs1) 2 (fun v => v.signExtend 32) rd rs1 imm s

/-- `lw rd, rs1, imm` (form RRI): word (R143). -/
def execLwRri (rd rs1 : RegIdx) (imm : Word) (s : State) : Host.Outcome State Fault Refusal :=
  load (.lwRri rd rs1 imm) 4 (fun v => v.setWidth 32) rd rs1 imm s

/-- `lw rd, imm(rs1)` (form RM): word (R143). -/
def execLwRm (rd : RegIdx) (imm : Word) (rs1 : RegIdx) (s : State) : Host.Outcome State Fault Refusal :=
  load (.lwRm rd imm rs1) 4 (fun v => v.setWidth 32) rd rs1 imm s

/-- `lbu rd, rs1, imm` (form RRI): zero-extended byte (R144). -/
def execLbuRri (rd rs1 : RegIdx) (imm : Word) (s : State) : Host.Outcome State Fault Refusal :=
  load (.lbuRri rd rs1 imm) 1 (fun v => v.setWidth 32) rd rs1 imm s

/-- `lbu rd, imm(rs1)` (form RM): zero-extended byte (R144). -/
def execLbuRm (rd : RegIdx) (imm : Word) (rs1 : RegIdx) (s : State) : Host.Outcome State Fault Refusal :=
  load (.lbuRm rd imm rs1) 1 (fun v => v.setWidth 32) rd rs1 imm s

/-- `lhu rd, rs1, imm` (form RRI): zero-extended halfword (R145). -/
def execLhuRri (rd rs1 : RegIdx) (imm : Word) (s : State) : Host.Outcome State Fault Refusal :=
  load (.lhuRri rd rs1 imm) 2 (fun v => v.setWidth 32) rd rs1 imm s

/-- `lhu rd, imm(rs1)` (form RM): zero-extended halfword (R145). -/
def execLhuRm (rd : RegIdx) (imm : Word) (rs1 : RegIdx) (s : State) : Host.Outcome State Fault Refusal :=
  load (.lhuRm rd imm rs1) 2 (fun v => v.setWidth 32) rd rs1 imm s

/-- `sb rs2, rs1, imm` (form RRI): bits 7:0 of the source (R146). -/
def execSbRri (rs2 rs1 : RegIdx) (imm : Word) (s : State) : Host.Outcome State Fault Refusal :=
  store (.sbRri rs2 rs1 imm) 1 rs2 rs1 imm s

/-- `sb rs2, imm(rs1)` (form RM): bits 7:0 of the source (R146). -/
def execSbRm (rs2 : RegIdx) (imm : Word) (rs1 : RegIdx) (s : State) : Host.Outcome State Fault Refusal :=
  store (.sbRm rs2 imm rs1) 1 rs2 rs1 imm s

/-- `sh rs2, rs1, imm` (form RRI): bits 15:0 of the source (R147). -/
def execShRri (rs2 rs1 : RegIdx) (imm : Word) (s : State) : Host.Outcome State Fault Refusal :=
  store (.shRri rs2 rs1 imm) 2 rs2 rs1 imm s

/-- `sh rs2, imm(rs1)` (form RM): bits 15:0 of the source (R147). -/
def execShRm (rs2 : RegIdx) (imm : Word) (rs1 : RegIdx) (s : State) : Host.Outcome State Fault Refusal :=
  store (.shRm rs2 imm rs1) 2 rs2 rs1 imm s

/-- `sw rs2, rs1, imm` (form RRI): the source word (R148). -/
def execSwRri (rs2 rs1 : RegIdx) (imm : Word) (s : State) : Host.Outcome State Fault Refusal :=
  store (.swRri rs2 rs1 imm) 4 rs2 rs1 imm s

/-- `sw rs2, imm(rs1)` (form RM): the source word (R148). -/
def execSwRm (rs2 : RegIdx) (imm : Word) (rs1 : RegIdx) (s : State) : Host.Outcome State Fault Refusal :=
  store (.swRm rs2 imm rs1) 4 rs2 rs1 imm s

end Sys2Proof.Machine
end

