-- ==== Sys2Proof/Machine/Shift.lean ====
section
/-! DEFINITION. Shift instructions (spec/42_shift.md). -/

namespace Sys2Proof.Machine

/-- `SLL(a, sh)` (R167): zeros enter at bit 0, bits past bit 31 are discarded. -/
def shiftLeft (a : Word) (sh : Nat) : Word :=
  word (unsigned a * ((2 ^ sh : Nat) : Int))

/-- `SRL(a, sh)` (R167): zeros enter at bit 31. -/
def shiftRightLogical (a : Word) (sh : Nat) : Word :=
  word ((unsigned a).fdiv ((2 ^ sh : Nat) : Int))

/-- `SRA(a, sh)` (R167): copies of bit 31 enter; the quotient rounds toward minus infinity. -/
def shiftRightArith (a : Word) (sh : Nat) : Word :=
  word ((signed a).fdiv ((2 ^ sh : Nat) : Int))

/-- `sll rd, rs1, rs2` (R161). -/
def execSll (rd rs1 rs2 : RegIdx) (s : State) : Host.Outcome State Fault Refusal :=
  writeResult rd (shiftLeft (s.reg rs1) (shiftDistance (s.reg rs2))) s

/-- `srl rd, rs1, rs2` (R162). -/
def execSrl (rd rs1 rs2 : RegIdx) (s : State) : Host.Outcome State Fault Refusal :=
  writeResult rd (shiftRightLogical (s.reg rs1) (shiftDistance (s.reg rs2))) s

/-- `sra rd, rs1, rs2` (R163). -/
def execSra (rd rs1 rs2 : RegIdx) (s : State) : Host.Outcome State Fault Refusal :=
  writeResult rd (shiftRightArith (s.reg rs1) (shiftDistance (s.reg rs2))) s

/-- `slli rd, rs1, imm` (R164). -/
def execSlli (rd rs1 : RegIdx) (imm : Word) (s : State) : Host.Outcome State Fault Refusal :=
  writeResult rd (shiftLeft (s.reg rs1) (shiftDistance imm)) s

/-- `srli rd, rs1, imm` (R165). -/
def execSrli (rd rs1 : RegIdx) (imm : Word) (s : State) : Host.Outcome State Fault Refusal :=
  writeResult rd (shiftRightLogical (s.reg rs1) (shiftDistance imm)) s

/-- `srai rd, rs1, imm` (R166). -/
def execSrai (rd rs1 : RegIdx) (imm : Word) (s : State) : Host.Outcome State Fault Refusal :=
  writeResult rd (shiftRightArith (s.reg rs1) (shiftDistance imm)) s

end Sys2Proof.Machine
end

