-- ==== Sys2Proof/Machine/System.lean ====
section
/-! DEFINITION. System instructions (spec/46_system.md). -/

namespace Sys2Proof.Machine

/-- `ecall`: the syscall hand-off; the pc stays the advanced pc (R240). -/
def execEcall (s : State) : Host.Outcome State Fault Refusal :=
  sysHandle .ecall s

/-- `scall`: as `ecall` (R241). -/
def execScall (s : State) : Host.Outcome State Fault Refusal :=
  sysHandle .scall s

/-- `ebreak`: the debug hand-off, whatever `cfg.debug_on_fault` is; the pc stays the advanced pc (R242). -/
def execEbreak (s : State) : Host.Outcome State Fault Refusal :=
  debugLaunch .breakpoint s

/-- `sbreak`: as `ebreak` (R243). -/
def execSbreak (s : State) : Host.Outcome State Fault Refusal :=
  debugLaunch .breakpoint s

/-- `nop`: no state change (R244). -/
def execNop (s : State) : Host.Outcome State Fault Refusal :=
  .next s

end Sys2Proof.Machine
end

