-- ==== Sys2Proof/Machine/Dispatch.lean ====
section
/-! DEFINITION. One arm per instruction, each one call of its meaning. -/

namespace Sys2Proof.Machine

/-- The handler of an instruction (R117), entered with the cycle counted and the pc advanced. -/
def exec (i : Instr) (s : State) : Host.Outcome State Fault Refusal :=
  match i with
  | .lbRri rd rs1 imm => Sys2Proof.Machine.execLbRri rd rs1 imm s
  | .lbRm rd imm rs1 => Sys2Proof.Machine.execLbRm rd imm rs1 s
  | .lhRri rd rs1 imm => Sys2Proof.Machine.execLhRri rd rs1 imm s
  | .lhRm rd imm rs1 => Sys2Proof.Machine.execLhRm rd imm rs1 s
  | .lwRri rd rs1 imm => Sys2Proof.Machine.execLwRri rd rs1 imm s
  | .lwRm rd imm rs1 => Sys2Proof.Machine.execLwRm rd imm rs1 s
  | .lbuRri rd rs1 imm => Sys2Proof.Machine.execLbuRri rd rs1 imm s
  | .lbuRm rd imm rs1 => Sys2Proof.Machine.execLbuRm rd imm rs1 s
  | .lhuRri rd rs1 imm => Sys2Proof.Machine.execLhuRri rd rs1 imm s
  | .lhuRm rd imm rs1 => Sys2Proof.Machine.execLhuRm rd imm rs1 s
  | .sbRri rs2 rs1 imm => Sys2Proof.Machine.execSbRri rs2 rs1 imm s
  | .sbRm rs2 imm rs1 => Sys2Proof.Machine.execSbRm rs2 imm rs1 s
  | .shRri rs2 rs1 imm => Sys2Proof.Machine.execShRri rs2 rs1 imm s
  | .shRm rs2 imm rs1 => Sys2Proof.Machine.execShRm rs2 imm rs1 s
  | .swRri rs2 rs1 imm => Sys2Proof.Machine.execSwRri rs2 rs1 imm s
  | .swRm rs2 imm rs1 => Sys2Proof.Machine.execSwRm rs2 imm rs1 s
  | .sll rd rs1 rs2 => Sys2Proof.Machine.execSll rd rs1 rs2 s
  | .srl rd rs1 rs2 => Sys2Proof.Machine.execSrl rd rs1 rs2 s
  | .sra rd rs1 rs2 => Sys2Proof.Machine.execSra rd rs1 rs2 s
  | .slli rd rs1 imm => Sys2Proof.Machine.execSlli rd rs1 imm s
  | .srli rd rs1 imm => Sys2Proof.Machine.execSrli rd rs1 imm s
  | .srai rd rs1 imm => Sys2Proof.Machine.execSrai rd rs1 imm s
  | .add rd rs1 rs2 => Sys2Proof.Machine.execAdd rd rs1 rs2 s
  | .sub rd rs1 rs2 => Sys2Proof.Machine.execSub rd rs1 rs2 s
  | .and rd rs1 rs2 => Sys2Proof.Machine.execAnd rd rs1 rs2 s
  | .or rd rs1 rs2 => Sys2Proof.Machine.execOr rd rs1 rs2 s
  | .xor rd rs1 rs2 => Sys2Proof.Machine.execXor rd rs1 rs2 s
  | .addi rd rs1 imm => Sys2Proof.Machine.execAddi rd rs1 imm s
  | .andi ops => Sys2Proof.Machine.execAndi ops s
  | .ori ops => Sys2Proof.Machine.execOri ops s
  | .xori ops => Sys2Proof.Machine.execXori ops s
  | .slt rd rs1 rs2 => Sys2Proof.Machine.execSlt rd rs1 rs2 s
  | .sltu rd rs1 rs2 => Sys2Proof.Machine.execSltu rd rs1 rs2 s
  | .slti ops => Sys2Proof.Machine.execSlti ops s
  | .sltiu ops => Sys2Proof.Machine.execSltiu ops s
  | .lui ops => Sys2Proof.Machine.execLui ops s
  | .auipc ops => Sys2Proof.Machine.execAuipc ops s
  | .beq rs1 rs2 target => Sys2Proof.Machine.execBeq rs1 rs2 target s
  | .bne rs1 rs2 target => Sys2Proof.Machine.execBne rs1 rs2 target s
  | .blt rs1 rs2 target => Sys2Proof.Machine.execBlt rs1 rs2 target s
  | .bge rs1 rs2 target => Sys2Proof.Machine.execBge rs1 rs2 target s
  | .bltu rs1 rs2 target => Sys2Proof.Machine.execBltu rs1 rs2 target s
  | .bgeu rs1 rs2 target => Sys2Proof.Machine.execBgeu rs1 rs2 target s
  | .j target => Sys2Proof.Machine.execJ target s
  | .jalI1 target => Sys2Proof.Machine.execJalI1 target s
  | .jalRi rd target => Sys2Proof.Machine.execJalRi rd target s
  | .jalr rd target => Sys2Proof.Machine.execJalr rd target s
  | .ret => Sys2Proof.Machine.execRet s
  | .ecall => Sys2Proof.Machine.execEcall s
  | .scall => Sys2Proof.Machine.execScall s
  | .ebreak => Sys2Proof.Machine.execEbreak s
  | .sbreak => Sys2Proof.Machine.execSbreak s
  | .nop => Sys2Proof.Machine.execNop s

end Sys2Proof.Machine
end

