-- ==== Sys2Proof/Machine/Loop.lean ====
section
/-! DEFINITION. One iteration of the loop (spec/40_dispatch_loop.md R110 to R120): what `step` calls. -/

namespace Sys2Proof.Machine

/-- Actions 3 and 4 of a step (R112), once the fetch has delivered a word: advance, look up, run. -/
def dispatchWord (w : Diw) (s : State) : Host.Outcome State Fault Refusal :=
  match decode w with
  | .ok i => exec i s.advancePc
  | .error r => rejectDecoded (unpack w) r s.advancePc

/-- `Step()` and the catch at the loop boundary (R112, R121): count the cycle, fetch, advance, dispatch. A fetch that
faults leaves the pc where it was (R114) and reports no instruction (R257). -/
def iterate (s : State) : Host.Outcome State Fault Refusal :=
  match s.countCycle.fetchInstr s.pc with
  | none => handleFault s.pc none .memoryFault (.badAddress s.pc) s.countCycle
  | some w => dispatchWord w s.countCycle

/-- The loop condition (R110, R120): the exit flag is tested at the top of the loop only. -/
def loopTop (s : State) : Host.Outcome State Fault Refusal :=
  if s.exit then .next (s.endRun .exitFlag) else iterate s

end Sys2Proof.Machine
end

