-- ==== Sys2Proof/Machine/Step.lean ====
section
/-! DEFINITION. One step of the machine, and the placing of an instruction where it fetches next. -/

namespace Sys2Proof.Machine

/-- One step. `Idle`: run start (R286). `Running`: the loop condition, then one iteration (R110, R112). A run that has
ended takes no step (R32, log 11). -/
def step (s : State) : Host.Outcome State Fault Refusal :=
  match s.status with
  | .idle => .next (runStart s)
  | .running => loopTop s
  | .halted _ => .fault .runEnded
  | .aborted _ => .fault .runEnded

/-- The state with this word as the instruction that `step` fetches next: placed in the instruction store at the
pc, as the Loader places a program (log 5), with the run inside its loop. -/
def State.withFetchWord (s : State) (nbits w : Nat) : State :=
  { s with imem := IMem.place s.imem s.pc.toNat (BitVec.ofNat 64 (w % 2 ^ nbits)), status := .running, exit := false }

end Sys2Proof.Machine
end

