-- ==== Sys2Proof/Safety.lean ====
section
/-! DEFINITION. What counts as a safe run (spec/40_dispatch_loop.md R125), and the invariant of the machine. -/

namespace Sys2Proof.Machine

/-- A run has ended exactly when its status is `Halted` or `Aborted` (R125). -/
def State.ended (s : State) : Bool :=
  match s.status with
  | .idle | .running => false
  | .halted _ | .aborted _ => true

/-- A run is successful only if it halted by the exit flag (R125). -/
def State.successful (s : State) : Bool :=
  s.status == .halted .exitFlag

/-- A run that halted on a fault or aborted has gone wrong (R125). A run that never started is neither (R123). -/
def State.goneWrong (s : State) : Bool :=
  match s.status with
  | .halted (.fault _) | .aborted _ => true
  | .halted .exitFlag | .halted .neverStarted | .idle | .running => false

/-- The events that report a fault or the end of a run (R258). -/
def Event.closes : Event → Bool
  | .faultReport .. | .exitReport _ => true
  | .syscallIssued _ | .debugLaunched .. => false

/-- No event of this trace reports a fault or an end. -/
def openTrace (tr : List Event) : Bool :=
  tr.all (fun e => !e.closes)

/-- The events that end a trace whose run halted for this reason (R122, R259): the report of a fault, its debug
launch if `cfg.debug_on_fault`, and the exit report. -/
def closing (s : State) : HaltReason → List Event → Prop
  | .exitFlag, es => es = [.exitReport s.exitCode]
  | .neverStarted, es => es = [.exitReport s.exitCode]
  | .fault k, es => ∃ (a : Word) (d : Option Decoded) (m : FaultMessage),
      es = .faultReport a d k m ::
        ((if s.cfg.debugOnFault then [.debugLaunched .fault s.pc] else []) ++ [.exitReport s.exitCode])

/-- The trace agrees with the status (R122, R256, R259, R285): reports stand at the end of a halted run's trace, in
order and once, and nowhere else. -/
def traceAgrees (s : State) : Prop :=
  match s.status with
  | .idle => s.trace = []
  | .running => openTrace s.trace
  | .aborted _ => openTrace s.trace
  | .halted r => ∃ before after, s.trace = before ++ after ∧ openTrace before ∧ closing s r after

/-- Every listed byte lies where D-space exists (R58). -/
def memInside (s : State) : Bool :=
  s.dmem.all (fun c => mappedAt s.platform c.1)

/-- The invariant of the machine: both stores in canonical form, D-space bytes only where D-space exists, register 0
zero where it is hardwired (R22), the trace in agreement with the status, and nothing counted, exited or
written to the exit code before a run has begun (R285, R123). -/
structure Inv (s : State) : Prop where
  memory : Memory.wf s.dmem = true
  inside : memInside s = true
  code : IMem.wf s.imem = true
  zeroReg : s.platform.x0Hardwired = true → s.regs[0] = 0
  trace : traceAgrees s
  before : s.status = .idle ∨ s.status = .halted .neverStarted → s.exit = false ∧ s.exitCode = 0 ∧ s.cycle = 0

/-- The instructions that write D-space themselves (R50, R56). -/
def storesBytes (i : Instr) : Bool :=
  match i.mnemonic with
  | .sb | .sh | .sw => true
  | _ => false

/-- The instructions that hand control to the Syscall Handler (R235). -/
def callsHandler (i : Instr) : Bool :=
  match i.mnemonic with
  | .ecall | .scall => true
  | _ => false

/-- The instructions that hand control to the Debug Session (R242, R243). -/
def callsDebugger (i : Instr) : Bool :=
  match i.mnemonic with
  | .ebreak | .sbreak => true
  | _ => false

end Sys2Proof.Machine
end

