-- ==== Sys2Proof/Certificates/Slice0/Obligations.lean ====
section
/-! DEFINITION. The statements for the provers. Each docstring names the rules or sections of spec/ it formalises, and,
where it rests on a choice, the decision D of spec/92_eei_decisions.md or the log entry. -/

open Sys2Proof Sys2Proof.Machine

namespace Sys2Proof.Machine.Claims

/-- Everything but the general registers, the pc and D-space is as before. -/
def SameRest (s t : State) : Prop :=
  t.cycle = s.cycle ∧ t.exit = s.exit ∧ t.exitCode = s.exitCode ∧ t.cfg = s.cfg ∧ t.status = s.status ∧
    t.trace = s.trace ∧ t.imem = s.imem ∧ t.loaded = s.loaded ∧ t.platform = s.platform ∧ t.hostCalls = s.hostCalls

/-- The only change is register `rd`, which reads `v` afterwards, or zero where it is hardwired (R22). -/
def WritesOnly (rd : RegIdx) (v : Word) (s t : State) : Prop :=
  t.reg rd = (if s.platform.x0Hardwired && rd == 0 then 0 else v) ∧ (∀ r, r ≠ rd → t.reg r = s.reg r) ∧
    t.pc = s.pc ∧ (∀ a, t.byteAt a = s.byteAt a) ∧ SameRest s t

/-- The only change is the pc. -/
def JumpsTo (p : Word) (s t : State) : Prop :=
  t.pc = p ∧ (∀ r, t.reg r = s.reg r) ∧ (∀ a, t.byteAt a = s.byteAt a) ∧ SameRest s t

/-- Inside the loop, about to fetch this word (R110, R114). -/
def Fetches (s : State) (w : Diw) : Prop :=
  s.status = .running ∧ s.exit = false ∧ IMem.lookup s.imem s.pc.toNat = some w

/-- The state a handler is entered with (R112): the cycle counted, the pc advanced. -/
def entered (s : State) : State :=
  { s with cycle := s.cycle + 1, pc := s.pc + s.platform.iunit }

/-- The handler of a mnemonic has this tag and accepts these kind sequences and no others: on any other list the
step takes the malformed-instruction fault, the count tested before the kinds (R83, R92, R119; that a wrong kind is
this fault too is R92's own decision D15). -/
def HandlerOf (m : Mnemonic) (tag : Byte) (kinds : List (List Kind)) : Prop :=
  m.tag = tag ∧ ∀ (s : State) (w : Diw), Fetches s w → Diw.op w = tag → (unpack w).ops.map Operand.kind ∉ kinds →
    step s = handleFault s.pc (some (unpack w)) .malformedInstruction
      (if kinds.any (fun ks => ks.length == (unpack w).ops.length) then .operandKind else .operandCount) (entered s)

/-- The two operand forms of the memory-access mnemonics. -/
def memKinds : List (List Kind) := [[.reg, .reg, .imm], [.reg, .mem]]

/-- The rule of a load (R141 to R145): where the read is granted it completes and writes the extended value to `rd`
alone; where it is refused it takes the memory fault on the unchanged state. Both forms. -/
def LoadRule (m : Mnemonic) (tag : Byte) (n : Nat) (extend : BitVec (8 * n) → Word) (rri : RegIdx → RegIdx → Word → Instr)
    (rm : RegIdx → Word → RegIdx → Instr) : Prop :=
  HandlerOf m tag memKinds ∧ ∀ (s : State) (rd rs1 : RegIdx) (imm : Word),
    (∀ v, s.memRead (s.effectiveAddress rs1 imm) n = some v →
      (∃ t, exec (rri rd rs1 imm) s = .next t ∧ WritesOnly rd (extend v) s t) ∧
      (∃ t, exec (rm rd imm rs1) s = .next t ∧ WritesOnly rd (extend v) s t)) ∧
    (s.memRead (s.effectiveAddress rs1 imm) n = none →
      exec (rri rd rs1 imm) s = handleFault (s.pc - s.platform.iunit) (some ⟨.known m, [.reg rd, .reg rs1, .imm imm]⟩)
        .memoryFault (.badAddress (s.effectiveAddress rs1 imm)) s ∧
      exec (rm rd imm rs1) s = handleFault (s.pc - s.platform.iunit) (some ⟨.known m, [.reg rd, .mem imm rs1]⟩)
        .memoryFault (.badAddress (s.effectiveAddress rs1 imm)) s)

/-- What a granted store of `n` bytes at `ea` leaves (R146 to R148): the low `n` bytes of the source there, in the byte
order of R54, and everything else as it was. -/
def Stored (n : Nat) (src : RegIdx) (ea : Word) (s t : State) : Prop :=
  (∀ k < n, t.byteAt (byteAddr ea k) =
    (s.reg src).extractLsb' (8 * (match s.platform.endian with | .little => k | .big => n - 1 - k)) 8) ∧
  (∀ a, (∀ k < n, a ≠ byteAddr ea k) → t.byteAt a = s.byteAt a) ∧
  (∀ r, t.reg r = s.reg r) ∧ t.pc = s.pc ∧ SameRest s t

/-- The rule of a store (R146 to R148), both forms. The premise on D-space is the invariant's first clause. -/
def StoreRule (m : Mnemonic) (tag : Byte) (n : Nat) (rri : RegIdx → RegIdx → Word → Instr)
    (rm : RegIdx → Word → RegIdx → Instr) : Prop :=
  HandlerOf m tag memKinds ∧ ∀ (s : State) (rs2 rs1 : RegIdx) (imm : Word), Memory.wf s.dmem = true →
    (s.admits .write (s.effectiveAddress rs1 imm) n = true →
      (∃ t, exec (rri rs2 rs1 imm) s = .next t ∧ Stored n rs2 (s.effectiveAddress rs1 imm) s t) ∧
      (∃ t, exec (rm rs2 imm rs1) s = .next t ∧ Stored n rs2 (s.effectiveAddress rs1 imm) s t)) ∧
    (s.admits .write (s.effectiveAddress rs1 imm) n = false →
      exec (rri rs2 rs1 imm) s = handleFault (s.pc - s.platform.iunit) (some ⟨.known m, [.reg rs2, .reg rs1, .imm imm]⟩)
        .memoryFault (.badAddress (s.effectiveAddress rs1 imm)) s ∧
      exec (rm rs2 imm rs1) s = handleFault (s.pc - s.platform.iunit) (some ⟨.known m, [.reg rs2, .mem imm rs1]⟩)
        .memoryFault (.badAddress (s.effectiveAddress rs1 imm)) s)

/-- A three-register instruction completes and writes the value that `f` says, and nothing else. -/
def R3Rule (m : Mnemonic) (tag : Byte) (i : RegIdx → RegIdx → RegIdx → Instr) (f : Word → Word → Word → Prop) : Prop :=
  HandlerOf m tag [[.reg, .reg, .reg]] ∧ ∀ (s : State) (rd rs1 rs2 : RegIdx),
    ∃ t v, exec (i rd rs1 rs2) s = .next t ∧ WritesOnly rd v s t ∧ f (s.reg rs1) (s.reg rs2) v

/-- A register-immediate instruction completes and writes the value that `f` says, and nothing else. -/
def RriRule (m : Mnemonic) (tag : Byte) (i : RegIdx → RegIdx → Word → Instr) (f : Word → Word → Word → Prop) : Prop :=
  HandlerOf m tag [[.reg, .reg, .imm]] ∧ ∀ (s : State) (rd rs1 : RegIdx) (imm : Word),
    ∃ t v, exec (i rd rs1 imm) s = .next t ∧ WritesOnly rd v s t ∧ f (s.reg rs1) imm v

/-- The rule of a branch (R205): taken, the pc is exactly the immediate target; not taken, it stays the advanced
pc; nothing else changes. -/
def BranchRule (m : Mnemonic) (tag : Byte) (i : RegIdx → RegIdx → Word → Instr) (cond : Word → Word → Prop) : Prop :=
  HandlerOf m tag [[.reg, .reg, .imm]] ∧ ∀ (s : State) (rs1 rs2 : RegIdx) (target : Word),
    ∃ t, exec (i rs1 rs2 target) s = .next t ∧
      (cond (s.reg rs1) (s.reg rs2) → JumpsTo target s t) ∧ (¬ cond (s.reg rs1) (s.reg rs2) → JumpsTo s.pc s t)

/-- Link and jump (R221, R222): the link register gets the advanced pc, the pc the target, and nothing else changes. -/
def Links (rd : RegIdx) (target : Word) (s t : State) : Prop :=
  t.pc = target ∧ t.reg rd = (if s.platform.x0Hardwired && rd == 0 then 0 else s.pc) ∧
    (∀ r, r ≠ rd → t.reg r = s.reg r) ∧ (∀ a, t.byteAt a = s.byteAt a) ∧ SameRest s t

/-- No collaborator that this instruction could call fails to return (log 10). -/
def Returns (s : State) : Prop := s.platform.blocksAt = none

/-- What one of the seven leaves (R184 to R191): the run halted with `UnimplementedInstruction`, and no register, no
memory and no pc changed, a Debug Session that may change state apart (R264, log 9). -/
def Unimplemented (m : Mnemonic) (tag : Byte) (i : List Operand → Instr) : Prop :=
  m.tag = tag ∧ ∀ (s : State) (ops : List Operand), Returns s →
    ∃ t, exec (i ops) s = .next t ∧ t.status = .halted (.fault .unimplementedInstruction) ∧
      t.trace = s.trace ++
        (.faultReport (s.pc - s.platform.iunit) (some ⟨.known m, ops⟩) .unimplementedInstruction (.unimplemented m) ::
          ((if s.cfg.debugOnFault then [.debugLaunched .fault s.pc] else []) ++ [.exitReport s.exitCode])) ∧
      t.pc = s.pc ∧ t.cycle = s.cycle ∧ t.exit = s.exit ∧ t.exitCode = s.exitCode ∧ t.cfg = s.cfg ∧ t.imem = s.imem ∧
      t.loaded = s.loaded ∧ t.platform = s.platform ∧
      (s.cfg.debugOnFault = false ∨ s.platform.debug = .inspect →
        (∀ r, t.reg r = s.reg r) ∧ (∀ a, t.byteAt a = s.byteAt a))

/-- Apply a function to a next state; a fault or a refusal stays. -/
def mapNext (f : State → State) : Host.Outcome State Fault Refusal → Host.Outcome State Fault Refusal
  | .next t => .next (f t)
  | .fault e => .fault e
  | .refused e => .refused e

/-- Is slot 0, 1 or 2 of this word present: is no slot up to it absent (R84)? -/
def slotPresent (w : Diw) (slot : Nat) : Bool :=
  [Diw.k0 w, Diw.k1 w, Diw.k2 w].take (slot + 1) |>.all (· != 0)

/-- Does this slot, of kind code `k`, read its register field: present, and no `Imm` (R84)? -/
def readsRegField (w : Diw) (slot : Nat) (k : BitVec 2) : Bool :=
  slotPresent w slot && k != 2

/-- Does this slot, of kind code `k`, read the `imm` field: present, and `Imm` or `Mem` (R84)? -/
def readsImm (w : Diw) (slot : Nat) (k : BitVec 2) : Bool :=
  slotPresent w slot && (k == 2 || k == 3)

/-- Does unpacking this word read its bit `b` (R84, R95)? -/
def readsBit (w : Diw) (b : Nat) : Bool :=
  if 54 ≤ b then true                                              -- op, k0
  else if 52 ≤ b then slotPresent w 0                              -- k1
  else if 50 ≤ b then slotPresent w 1                              -- k2
  else if 45 ≤ b then readsRegField w 0 (Diw.k0 w)                 -- r0
  else if 40 ≤ b then readsRegField w 1 (Diw.k1 w)                 -- r1
  else if 35 ≤ b then readsRegField w 2 (Diw.k2 w)                 -- r2
  else if 32 ≤ b then false                                        -- bits 34:32
  else readsImm w 0 (Diw.k0 w) || readsImm w 1 (Diw.k1 w) || readsImm w 2 (Diw.k2 w)

/-- What a collaborator's writes leave (R236): a register or an existing byte holds what was last written to it, register
0 reads zero where it is hardwired (R22), and one that is not named is as before. A byte named where D-space does
not exist is as before (log 8). The premise on D-space is the invariant's first clause. -/
def Wrote (w : HostWrites) (s t : State) : Prop :=
  (∀ before after r v, w.regs = before ++ (r, v) :: after → (∀ c ∈ after, c.1 ≠ r) →
    t.reg r = if s.platform.x0Hardwired && r == 0 then 0 else v) ∧
  (∀ r, (∀ c ∈ w.regs, c.1 ≠ r) → t.reg r = s.reg r) ∧
  (∀ before after a v, w.bytes = before ++ (a, v) :: after → (∀ c ∈ after, c.1 ≠ a) →
    mappedAt s.platform a.toNat = true → Memory.wf s.dmem = true → t.byteAt a = v) ∧
  (∀ a, (∀ c ∈ w.bytes, c.1 ≠ a) ∨ mappedAt s.platform a.toNat = false → t.byteAt a = s.byteAt a)

/-- What the syscall hand-off with this number leaves where the handler's reply raises no fault (R235, R236): the event
reported; `exit` set if the reply sets it, and never cleared (R29); `exit_code` as the reply says; what it writes to
registers and D-space; and nothing else. -/
def Replied (number : Word) (r : HostReply) (s t : State) : Prop :=
  t.trace = s.trace ++ [.syscallIssued number] ∧ t.exit = (s.exit || r.setsExit) ∧
    t.exitCode = r.exitCode.getD s.exitCode ∧ Wrote r.writes s t ∧ t.status = s.status ∧ t.pc = s.pc ∧
    t.cycle = s.cycle ∧ t.cfg = s.cfg ∧ t.imem = s.imem ∧ t.loaded = s.loaded ∧ t.platform = s.platform

/-- The instructions that redirect control (R26). -/
def transfersControl (i : Instr) : Bool :=
  match i.mnemonic with
  | .beq | .bne | .blt | .bge | .bltu | .bgeu | .j | .jal | .jalr | .ret => true
  | _ => false

end Sys2Proof.Machine.Claims

open Sys2Proof.Machine.Claims

/-! ### Encoding -/

/-- Words written out in spec/95_test_vectors.md Part C1 (EN1 to EN12), NC1, DF1 and DF16, each decoded to the instruction
written beside it, or rejected as written there. -/
def Obligations.SampleWordsDecode : Prop :=
  decode 0x7300000000000000 = .ok .ret ∧
  decode 0x7080000000000180 = .ok (.j 0x180) ∧
  decode 0x7180000000000110 = .ok (.jalI1 0x110) ∧
  decode 0x7160A00000000110 = .ok (.jalRi 5 0x110) ∧
  decode 0x7260200000000120 = .ok (.jalr 1 0x120) ∧
  decode 0x3057FEE800000000 = .ok (.add 31 30 29) ∧
  decode 0x3558A000FFFFFFFF = .ok (.addi 5 0 0xFFFFFFFF) ∧
  decode 0x1270A60000000008 = .ok (.lwRm 5 8 6) ∧
  decode 0x1258A60000000008 = .ok (.lwRri 5 6 8) ∧
  decode 0x17702200FFFFFFFC = .ok (.swRm 1 0xFFFFFFFC 2) ∧
  decode 0x6058A60000000104 = .ok (.beq 5 6 0x104) ∧
  decode 0x5060A00000012345 = .ok (.lui [.reg 5, .imm 0x12345]) ∧
  decode 0x3054A63FDEADBEEF = .ok (.add 5 6 7) ∧
  decode 0x3050A60000000000 = .error (.operandCount .add) ∧
  decode 0x0000000000000000 = .error (.unregistered 0)

/-- 30_encoding section 2: decoding the canonical word of a well-formed instruction gives the instruction back, for
every operand value. Well-formedness of the seven's operand list is log 16's (decision D13). -/
def Obligations.DecodeEncodeRoundTrip : Prop :=
  ∀ i : Instr, i.wellFormed = true → decode (encode i) = .ok i

/-- 30_encoding section 2: every word unpacks as its canonical word does, so the bits that unpacking does not read
have no effect (decision D13). -/
def Obligations.CanonicalWordMeansTheSame : Prop :=
  ∀ w : Diw, unpack (pack (unpack w)) = unpack w

/-- 30_encoding sections 2 and 5 (decision D13): the bits that unpacking a word does not read have no effect: bits 34:32;
after the first absent slot, its successors' kinds and the register fields from it on; the register field of an
`Imm` slot; `imm` where no present slot is `Imm` or `Mem`. A word with the same bits elsewhere unpacks to the same
Decoded Instruction and behaves identically. -/
def Obligations.UnreadBitsIgnored : Prop :=
  ∀ w v : Diw, (∀ b < 64, readsBit w b = true → w.getLsbD b = v.getLsbD b) →
    unpack w = unpack v ∧ ∀ s : State, dispatchWord w s = dispatchWord v s

/-- 30_encoding section 5: a word is an instruction exactly when it matches a row of the opcode table, and then it is
that row's instruction. -/
def Obligations.DecodesExactlyTheTableRows : Prop :=
  (∀ (w : Diw) (i : Instr), decode w = .ok i → ∃ r ∈ opcodeTable, r.matches w = true ∧ r.mnemonic = i.mnemonic) ∧
  (∀ (w : Diw) (r : OpRow), r ∈ opcodeTable → r.matches w = true → ∃ i, decode w = .ok i ∧ i.mnemonic = r.mnemonic)

/-- 30_encoding section 5: "There are 53 rows in all, and no word matches two of them." -/
def Obligations.NoWordMatchesTwoRows : Prop :=
  opcodeTable.length = 53 ∧
    ∀ (w : Diw) (r q : OpRow), r ∈ opcodeTable → q ∈ opcodeTable → r.matches w = true → q.matches w = true → r = q

/-- R126: `SupportedMnemonics()` is exactly the set with a registered handler, the seven unimplemented ones included,
44 in all; every member has an operand list that dispatch accepts, and a name outside has none. -/
def Obligations.SupportedIsExactlyTheHandled : Prop :=
  supportedMnemonics.length = 44 ∧ supportedMnemonics.Nodup ∧
  (∀ m, m ∈ supportedMnemonics ↔ lookup (.known m) = some m) ∧
  (∀ m, m ∈ supportedMnemonics ↔ ∃ ops i, dispatch ⟨.known m, ops⟩ = .ok i) ∧
  (∀ m : Mnemonic, m.isUnimplemented = true → m ∈ supportedMnemonics) ∧
  (∀ t, lookup (.unregistered t) = none)

/-- 60_exceptions section 3 (decision D22): the decoded instruction a handler's fault report names is the one the fetched
word unpacks to. -/
def Obligations.ReportsTheFetchedInstruction : Prop :=
  ∀ (w : Diw) (i : Instr), decode w = .ok i → i.decoded = unpack w

/-! ### The loop -/

/-- 40_dispatch_loop section 2: when the word at the pc decodes to a well-formed instruction, the step is its handler,
entered with the cycle counted and the pc advanced. -/
def Obligations.StepRunsTheDecodedInstruction : Prop :=
  ∀ (s : State) (w : Diw) (i : Instr), Fetches s w → decode w = .ok i → i.wellFormed = true → step s = exec i (entered s)

/-- 40_dispatch_loop section 2 and 60_exceptions section 3 (a derived sentence of R114): a fetch where there is no
instruction takes the memory fault with the cycle counted and the pc not advanced. That the report names the pc of
the fetch and no instruction is decision D22. -/
def Obligations.FetchFaultKeepsThePc : Prop :=
  ∀ s : State, s.status = .running → s.exit = false → IMem.lookup s.imem s.pc.toNat = none →
    step s = handleFault s.pc none .memoryFault (.badAddress s.pc) { s with cycle := s.cycle + 1 }

/-- R91, R118: a word whose tag no mnemonic has aborts the run: the cycle counted, the pc advanced, nothing else
changed and nothing reported. -/
def Obligations.UnregisteredTagAborts : Prop :=
  ∀ (s : State) (w : Diw), Fetches s w → (∀ m : Mnemonic, m.tag ≠ Diw.op w) →
    step s = .next { s with cycle := s.cycle + 1, pc := s.pc + s.platform.iunit, status := .aborted .internalDefect }

/-- 40_dispatch_loop sections 1 and 3: the exit flag is tested at the top of the loop: the run halts, reports its exit
code, and fetches nothing. That this test is a step of its own is log 12's. -/
def Obligations.ExitFlagEndsTheRun : Prop :=
  ∀ s : State, s.status = .running → s.exit = true →
    step s = .next { s with status := .halted .exitFlag, trace := s.trace ++ [.exitReport s.exitCode] }

/-- R122: a step that ends the loop, by the exit flag or by a caught fault or because the run never started, reports the
exit code once, last; a step that aborts and a step after which the run goes on report none. The code reported is the
last one a system call set, 0 if none did. -/
def Obligations.ExitReportedOnceAtTheEnd : Prop :=
  ∀ s t : State, step s = .next t →
    ∃ es, t.trace = s.trace ++ es ∧
      ((∃ r, t.status = .halted r) → ∃ fs, es = fs ++ [.exitReport t.exitCode] ∧ ∀ c, Event.exitReport c ∉ fs) ∧
      ((∀ r, t.status ≠ .halted r) → ∀ c, Event.exitReport c ∉ es) ∧
      State.reset.exitCode = 0 ∧
      (t.exitCode ≠ s.exitCode → ∃ w, Fetches s w ∧ (decode w = .ok .ecall ∨ decode w = .ok .scall))

/-- 60_exceptions section 4: taking a fault reports it, then launches the Debug Session if `cfg.debug_on_fault`, then the loop ends and
reports the exit code; it sets neither `exit` nor `exit_code`, nor the pc or the cycle, and saves nothing. That a launched
Debug Session which may change state still leaves `exit`, `exit_code`, the pc and the cycle alone is log 9's frame
(46_system section 1, decision D27). -/
def Obligations.TakingAFaultReportsAndHalts : Prop :=
  ∀ (s : State) (a : Word) (d : Option Decoded) (k : FaultKind) (m : FaultMessage), Returns s →
    ∃ t, handleFault a d k m s = .next t ∧ t.status = .halted (.fault k) ∧
      t.trace = s.trace ++ (.faultReport a d k m ::
        ((if s.cfg.debugOnFault then [.debugLaunched .fault s.pc] else []) ++ [.exitReport s.exitCode])) ∧
      t.exit = s.exit ∧ t.exitCode = s.exitCode ∧ t.pc = s.pc ∧ t.cycle = s.cycle ∧
      (s.cfg.debugOnFault = false ∨ s.platform.debug = .inspect → t.regs = s.regs ∧ t.dmem = s.dmem)

/-- 10_state section 4 and 40_dispatch_loop section 1 (log 10, log 11): a step is refused never; it answers no next
state exactly when the run has ended or the collaborator it calls never returns. -/
def Obligations.EveryRunningStateSteps : Prop :=
  ∀ s : State, (step s = .fault .runEnded ↔ s.ended = true) ∧ (∀ r, step s ≠ .refused r) ∧
    (Returns s → s.ended = false → ∃ t, step s = .next t)

/-- 60_exceptions section 4 (a derived rule): a step that halts on a fault other than a syscall fault has changed
nothing but the cycle, and the pc if the fetch succeeded (a Debug Session that may change state apart, log 9). -/
def Obligations.FaultsArePrecise : Prop :=
  ∀ (s t : State) (k : FaultKind), s.ended = false → step s = .next t → t.status = .halted (.fault k) →
    k ≠ .syscallFault → (s.cfg.debugOnFault = false ∨ s.platform.debug = .inspect) →
    (∀ r, t.reg r = s.reg r) ∧ (∀ a, t.byteAt a = s.byteAt a) ∧ t.exit = s.exit ∧ t.exitCode = s.exitCode ∧
      t.cycle = s.cycle + 1 ∧
      t.pc = (if IMem.lookup s.imem s.pc.toNat = none then s.pc else s.pc + s.platform.iunit)

/-- R253: `UnimplementedInstruction` is raised by exactly the handlers of the seven, always. -/
def Obligations.UnimplementedFaultIsTheSevens : Prop :=
  ∀ s t : State, s.ended = false → step s = .next t →
    (t.status = .halted (.fault .unimplementedInstruction) ↔ ∃ w, Fetches s w ∧
      (unpack w).name ∈ [.known .lui, .known .auipc, .known .xori, .known .ori, .known .andi, .known .slti, .known .sltiu])

/-- 60_exceptions section 2: a step halts on a memory fault only where the Memory collaborator refused the fetch or the
one access of a memory-access instruction. -/
def Obligations.MemoryFaultOnlyWhereRefused : Prop :=
  ∀ s t : State, s.ended = false → step s = .next t → t.status = .halted (.fault .memoryFault) →
    IMem.lookup s.imem s.pc.toNat = none ∨
      ∃ w i rd base imm k n, Fetches s w ∧ decode w = .ok i ∧
        (i.operands = [.reg rd, .reg base, .imm imm] ∨ i.operands = [.reg rd, .mem imm base]) ∧
        (i.mnemonic ∈ [.lb, .lbu] ∧ k = .read ∧ n = 1 ∨ i.mnemonic ∈ [.lh, .lhu] ∧ k = .read ∧ n = 2 ∨
          i.mnemonic = .lw ∧ k = .read ∧ n = 4 ∨ i.mnemonic = .sb ∧ k = .write ∧ n = 1 ∨
          i.mnemonic = .sh ∧ k = .write ∧ n = 2 ∨ i.mnemonic = .sw ∧ k = .write ∧ n = 4) ∧
        (entered s).admits k ((entered s).effectiveAddress base imm) n = false

/-! ### Rules of the whole machine -/

/-- 10_state section 4, 40_dispatch_loop section 2: the cycle counter is incremented by exactly 1 by every loop
iteration, a faulting one included, and by nothing else. -/
def Obligations.CycleCountsIterations : Prop :=
  ∀ s t : State, step s = .next t →
    t.cycle = if s.status = .running ∧ s.exit = false then s.cycle + 1 else s.cycle

/-- 10_state section 4, 20_memory section 6: no step changes the configuration, the instruction store, the Loaded
Executable or a parameter, so no store changes what a fetch returns (decision D11, log 15). -/
def Obligations.ParametersNeverChange : Prop :=
  ∀ s t : State, step s = .next t →
    t.cfg = s.cfg ∧ t.imem = s.imem ∧ t.loaded = s.loaded ∧ t.platform = s.platform

/-- 10_state section 4: no instruction reads the cycle counter or the symbol flag: an instruction run with another
count, or with the other flag, does the same, with any Syscall Handler (what it sees: log 6). The
Debug Session is given the engine state (R28, log 18): either it only inspects, or the instruction is none that
launches it and no fault does. -/
def Obligations.NoInstructionReadsCycleOrSymbols : Prop :=
  ∀ (s : State) (i : Instr) (c : BitVec 64) (b : Bool),
    s.platform.debug = .inspect ∨ callsDebugger i = false ∧ s.cfg.debugOnFault = false →
    exec i { s with cycle := c, cfg := { s.cfg with addSyscallSymbols := b } } =
      mapNext (fun t => { t with cycle := c, cfg := { t.cfg with addSyscallSymbols := b } }) (exec i s)

/-- 10_state section 4: nothing clears the exit flag; it and the exit code change only in a step that runs `ecall` or
`scall`. -/
def Obligations.OnlySyscallsSetExit : Prop :=
  ∀ s t : State, step s = .next t →
    (s.exit = true → t.exit = true) ∧
    (t.exit ≠ s.exit ∨ t.exitCode ≠ s.exitCode → ∃ w, Fetches s w ∧ (decode w = .ok .ecall ∨ decode w = .ok .scall))

/-- 20_memory section 7: D-space changes in a step only by a store instruction, by the Syscall Handler during `ecall` or
`scall`, or by a Debug Session that may change state (log 9). -/
def Obligations.OnlyStoresAndHandoffsChangeMemory : Prop :=
  ∀ s t : State, step s = .next t → s.platform.debug = .inspect →
    (∀ w i, Fetches s w → decode w = .ok i → storesBytes i = false ∧ callsHandler i = false) →
    ∀ a, t.byteAt a = s.byteAt a

/-- 10_state section 3, the table of R26: an instruction that does not redirect control leaves the pc at the advanced pc,
whether it completes or faults. -/
def Obligations.OnlyControlTransfersMoveThePc : Prop :=
  ∀ (s t : State) (i : Instr), exec i s = .next t → transfersControl i = false → t.pc = s.pc

/-- Every step keeps the invariant: both stores in canonical form, D-space bytes only where D-space exists, register 0 zero
where it is hardwired (10_state section 2, decision D2), the trace in agreement with the status: a halted run's
reports once, in order, at its end (sections 1 and 3 of 40_dispatch_loop, 3 and 4 of 60_exceptions), and nothing
counted or exited before a run has begun (70_reset_and_hazards section 1). That a byte is written only where D-space
exists rests on the model's choices of log 7 (which accesses are granted) and log 8 (a collaborator's writes
elsewhere are dropped). -/
def Obligations.EveryStepKeepsTheInvariant : Prop :=
  ∀ s t : State, Inv s → step s = .next t → Inv t

/-- The machine after reset, and the machine as constructed, meet the invariant. -/
def Obligations.ResetMeetsTheInvariant : Prop :=
  Inv State.reset ∧ Inv State.constructed

/-! ### Memory -/

/-- 20_memory sections 2 and 7: a read after a write of the same width at the same address gives the value written, if
the memory then admits it. The premise on D-space is the invariant's first clause. -/
def Obligations.ReadAfterWriteGivesTheValue : Prop :=
  ∀ (s t : State) (a : Word) (n : Nat) (v : BitVec (8 * n)), n ∈ [1, 2, 4] → Memory.wf s.dmem = true →
    s.memWrite a n v = some t → t.admits .read a n = true → t.memRead a n = some v

/-- 20_memory section 3 (decision D8): the bytes of a read, in little-endian and in big-endian order. -/
def Obligations.ReadsAssembleBytesInOrder : Prop :=
  ∀ (s : State) (a : Word),
    (s.admits .read a 1 = true → s.memRead a 1 = some (s.byteAt a)) ∧
    (s.admits .read a 2 = true → s.memRead a 2 = some (match s.platform.endian with
      | .little => s.byteAt (a + 1) ++ s.byteAt a
      | .big => s.byteAt a ++ s.byteAt (a + 1))) ∧
    (s.admits .read a 4 = true → s.memRead a 4 = some (match s.platform.endian with
      | .little => s.byteAt (a + 3) ++ s.byteAt (a + 2) ++ s.byteAt (a + 1) ++ s.byteAt a
      | .big => s.byteAt a ++ s.byteAt (a + 1) ++ s.byteAt (a + 2) ++ s.byteAt (a + 3)))

/-- 20_memory sections 4 and 6 (decisions D9 and D12): what the reference platform's memory admits, with either setting of
`MISALIGNED`. -/
def Obligations.ReferencePlatformAdmits : Prop :=
  ∀ (s : State) (k : Access) (a : Word) (n : Nat), n ∈ [1, 2, 4] → s.platform.admission = .regions →
    s.platform.dspace = ({} : Platform).dspace →
    (s.admits k a n = true ↔
      0x10000 ≤ a.toNat ∧ a.toNat + n ≤ 0x10000 + 0x10000 ∧
        (s.platform.misaligned = .bytewise ∨ a.toNat % n = 0))

/-- 20_memory section 5 (decision D10): the effective address is base plus offset modulo 2^32, the offset read signed or
unsigned alike. -/
def Obligations.EffectiveAddressWraps : Prop :=
  ∀ (s : State) (b : RegIdx) (i : Word),
    (s.effectiveAddress b i).toNat = ((s.reg b).toNat + i.toNat) % 2 ^ 32 ∧
    ((s.effectiveAddress b i).toNat : Int) = ((s.reg b).toNat + i.toInt) % 2 ^ 32

/-! ### Memory-access instructions -/

/-- R141, R142: `lb` and `lh` sign-extend. -/
def Obligations.SignedLoadsSignExtend : Prop :=
  LoadRule .lb 0x10 1 (fun v => BitVec.ofInt 32 v.toInt) .lbRri .lbRm ∧
  LoadRule .lh 0x11 2 (fun v => BitVec.ofInt 32 v.toInt) .lhRri .lhRm

/-- R144, R145: `lbu` and `lhu` zero-extend. -/
def Obligations.UnsignedLoadsZeroExtend : Prop :=
  LoadRule .lbu 0x13 1 (fun v => BitVec.ofNat 32 v.toNat) .lbuRri .lbuRm ∧
  LoadRule .lhu 0x14 2 (fun v => BitVec.ofNat 32 v.toNat) .lhuRri .lhuRm

/-- 41_memory_access section 2 (a derived sentence of R143): `lw` loads the word as it is. -/
def Obligations.WordLoadsKeepTheWord : Prop :=
  LoadRule .lw 0x12 4 (fun v => v) .lwRri .lwRm

/-- R146, R147, R148: stores truncate the source to the width, write its bytes at the effective address, and write no
register. -/
def Obligations.StoresTruncateAndWriteTheirBytes : Prop :=
  StoreRule .sb 0x15 1 .sbRri .sbRm ∧ StoreRule .sh 0x16 2 .shRri .shRm ∧ StoreRule .sw 0x17 4 .swRri .swRm

/-! ### Shifts -/

/-- 42_shift sections 1 to 3: `sll` and `slli`. That the bits past bit 31 are discarded is the spec's derived sentence in
section 1 (decision D31). -/
def Obligations.LeftShiftsFillWithZeros : Prop :=
  R3Rule .sll 0x20 .sll (fun a b v => v.toNat = a.toNat * 2 ^ (b.toNat % 32) % 2 ^ 32) ∧
  RriRule .slli 0x23 .slli (fun a i v => v.toNat = a.toNat * 2 ^ (i.toNat % 32) % 2 ^ 32)

/-- R162, R165: `srl` and `srli`. -/
def Obligations.LogicalRightShiftsFillWithZeros : Prop :=
  R3Rule .srl 0x21 .srl (fun a b v => v.toNat = a.toNat / 2 ^ (b.toNat % 32)) ∧
  RriRule .srli 0x24 .srli (fun a i v => v.toNat = a.toNat / 2 ^ (i.toNat % 32))

/-- R163, R166: `sra` and `srai` round toward minus infinity. -/
def Obligations.ArithmeticRightShiftsFillWithTheSign : Prop :=
  R3Rule .sra 0x22 .sra (fun a b v => v.toInt = a.toInt.fdiv (2 ^ (b.toNat % 32))) ∧
  RriRule .srai 0x25 .srai (fun a i v => v.toInt = a.toInt.fdiv (2 ^ (i.toNat % 32)))

/-- R160: the distance is the low 5 bits, of the register in the register forms and of the immediate in the immediate
forms: it is taken modulo 32, and no value of the other bits faults; a distance of 32 leaves the value unchanged. -/
def Obligations.ShiftDistanceIsModulo32 : Prop :=
  ∀ (s : State) (rd rs1 rs2 : RegIdx) (i : Word),
    (∃ t, exec (.sll rd rs1 rs2) s = .next t ∧ WritesOnly rd (shiftLeft (s.reg rs1) ((s.reg rs2).toNat % 32)) s t) ∧
    (∃ t, exec (.srl rd rs1 rs2) s = .next t ∧ WritesOnly rd (shiftRightLogical (s.reg rs1) ((s.reg rs2).toNat % 32)) s t) ∧
    (∃ t, exec (.sra rd rs1 rs2) s = .next t ∧ WritesOnly rd (shiftRightArith (s.reg rs1) ((s.reg rs2).toNat % 32)) s t) ∧
    (∃ t, exec (.slli rd rs1 i) s = .next t ∧ WritesOnly rd (shiftLeft (s.reg rs1) (i.toNat % 32)) s t) ∧
    (∃ t, exec (.srli rd rs1 i) s = .next t ∧ WritesOnly rd (shiftRightLogical (s.reg rs1) (i.toNat % 32)) s t) ∧
    (∃ t, exec (.srai rd rs1 i) s = .next t ∧ WritesOnly rd (shiftRightArith (s.reg rs1) (i.toNat % 32)) s t) ∧
    shiftLeft (s.reg rs1) (32 % 32) = s.reg rs1 ∧ shiftRightLogical (s.reg rs1) (32 % 32) = s.reg rs1 ∧
    shiftRightArith (s.reg rs1) (32 % 32) = s.reg rs1

/-! ### Arithmetic, logic, compare -/

/-- R176, R181: `add` and `addi` wrap modulo 2^32, with the signed readings alike; no overflow fault. -/
def Obligations.AdditionWraps : Prop :=
  R3Rule .add 0x30 .add (fun a b v => v.toNat = (a.toNat + b.toNat) % 2 ^ 32 ∧ v = BitVec.ofInt 32 (a.toInt + b.toInt)) ∧
  RriRule .addi 0x35 .addi (fun a i v => v.toNat = (a.toNat + i.toNat) % 2 ^ 32 ∧ v = BitVec.ofInt 32 (a.toInt + i.toInt))

/-- 43_arith_logic section 2 (operand order: decision D14): `sub` is the first source minus the second, modulo 2^32. -/
def Obligations.SubtractionWraps : Prop :=
  R3Rule .sub 0x31 .sub (fun a b v => (v.toNat : Int) = ((a.toNat : Int) - b.toNat) % 2 ^ 32)

/-- 43_arith_logic section 2 (decision D19): `and`, `or`, `xor` bit by bit. -/
def Obligations.LogicIsBitwise : Prop :=
  R3Rule .and 0x32 .and (fun a b v => ∀ k < 32, v.getLsbD k = (a.getLsbD k && b.getLsbD k)) ∧
  R3Rule .or 0x33 .or (fun a b v => ∀ k < 32, v.getLsbD k = (a.getLsbD k || b.getLsbD k)) ∧
  R3Rule .xor 0x34 .xor (fun a b v => ∀ k < 32, v.getLsbD k = (a.getLsbD k != b.getLsbD k))

/-- 43_arith_logic section 2 (decision D18): `slt` compares signed, `sltu` unsigned; they write the word 1 or 0. -/
def Obligations.SetLessThanWritesOneOrZero : Prop :=
  R3Rule .slt 0x40 .slt (fun a b v => v = if a.toInt < b.toInt then 1 else 0) ∧
  R3Rule .sltu 0x41 .sltu (fun a b v => v = if a.toNat < b.toNat then 1 else 0)

/-- R185 to R191: the seven raise their fault for every operand list and write nothing. -/
def Obligations.TheSevenRaiseUnimplemented : Prop :=
  Claims.Unimplemented .lui 0x50 .lui ∧ Claims.Unimplemented .auipc 0x51 .auipc ∧ Claims.Unimplemented .xori 0x38 .xori ∧
  Claims.Unimplemented .ori 0x37 .ori ∧ Claims.Unimplemented .andi 0x36 .andi ∧ Claims.Unimplemented .slti 0x42 .slti ∧
  Claims.Unimplemented .sltiu 0x43 .sltiu

/-! ### Branches and jumps -/

/-- R206, R207: `beq` and `bne`. -/
def Obligations.EqualityBranchesGoToTheTarget : Prop :=
  BranchRule .beq 0x60 .beq (fun a b => a = b) ∧ BranchRule .bne 0x61 .bne (fun a b => a ≠ b)

/-- R208, R209: `blt` and `bge` compare signed. -/
def Obligations.SignedBranchesGoToTheTarget : Prop :=
  BranchRule .blt 0x62 .blt (fun a b => a.toInt < b.toInt) ∧ BranchRule .bge 0x63 .bge (fun a b => b.toInt ≤ a.toInt)

/-- R210, R211: `bltu` and `bgeu` compare unsigned. -/
def Obligations.UnsignedBranchesGoToTheTarget : Prop :=
  BranchRule .bltu 0x64 .bltu (fun a b => a.toNat < b.toNat) ∧ BranchRule .bgeu 0x65 .bgeu (fun a b => b.toNat ≤ a.toNat)

/-- R220, R223: `j` goes to its target, `ret` to the bit pattern of the return-address register; neither writes a
register. -/
def Obligations.JumpAndReturnMoveOnlyThePc : Prop :=
  HandlerOf .j 0x70 [[.imm]] ∧ HandlerOf .ret 0x73 [[]] ∧
  ∀ (s : State) (target : Word),
    (∃ t, exec (.j target) s = .next t ∧ JumpsTo target s t) ∧
    (∃ t, exec .ret s = .next t ∧ JumpsTo (s.reg s.platform.regRa) s t)

/-- R221: `jal` links the advanced pc in the named register, or in the return-address register, and goes to its target; a
`ret` after the form with no register restores exactly that pc, unless the link register discards writes. -/
def Obligations.JalLinksTheAdvancedPc : Prop :=
  HandlerOf .jal 0x71 [[.imm], [.reg, .imm]] ∧
  ∀ (s : State) (rd : RegIdx) (target : Word),
    (∃ t, exec (.jalI1 target) s = .next t ∧ Links s.platform.regRa target s t ∧
      (¬ (s.platform.x0Hardwired = true ∧ s.platform.regRa = 0) → ∃ u, exec .ret t = .next u ∧ u.pc = s.pc)) ∧
    (∃ t, exec (.jalRi rd target) s = .next t ∧ Links rd target s t)

/-- 45_jump section 1 (decision D21): `jalr` links and goes to an absolute immediate. -/
def Obligations.JalrLinksTheAdvancedPc : Prop :=
  HandlerOf .jalr 0x72 [[.reg, .imm]] ∧
  ∀ (s : State) (rd : RegIdx) (target : Word), ∃ t, exec (.jalr rd target) s = .next t ∧ Links rd target s t

/-- 45_jump section 2: a `ret` after a `jal` with no explicit register goes to the address after the `jal`, as long as the
link register is not one that discards writes. -/
def Obligations.ReturnAfterJalResumesAfterIt : Prop :=
  ∀ (s : State) (w v : Diw) (target : Word), Fetches s w → decode w = .ok (.jalI1 target) →
    IMem.lookup s.imem target.toNat = some v → decode v = .ok .ret →
    ¬ (s.platform.x0Hardwired = true ∧ s.platform.regRa = 0) →
    ∃ t u, step s = .next t ∧ t.pc = target ∧ step t = .next u ∧ u.pc = s.pc + s.platform.iunit

/-! ### System instructions -/

/-- 46_system section 2 (arity: decision D20): `nop` changes nothing. -/
def Obligations.NopChangesNothing : Prop :=
  HandlerOf .nop 0x84 [[]] ∧ ∀ s : State, exec .nop s = .next s

/-- 46_system section 2 (decision D20; the session's frame: decision D27, log 9): `ebreak` and `sbreak` launch the Debug
Session whatever `cfg.debug_on_fault` is, and the pc stays; a session that only inspects changes nothing; one that may change state
makes its free writes and no other change. -/
def Obligations.BreakpointsLaunchTheDebugger : Prop :=
  HandlerOf .ebreak 0x82 [[]] ∧ HandlerOf .sbreak 0x83 [[]] ∧
  ∀ s : State, Returns s → ∃ t, exec .ebreak s = .next t ∧ exec .sbreak s = .next t ∧
    t.trace = s.trace ++ [.debugLaunched .breakpoint s.pc] ∧ t.status = s.status ∧ t.pc = s.pc ∧ t.cycle = s.cycle ∧
    t.exit = s.exit ∧ t.exitCode = s.exitCode ∧ t.cfg = s.cfg ∧ t.imem = s.imem ∧ t.loaded = s.loaded ∧
    t.platform = s.platform ∧
    (s.platform.debug = .inspect → (∀ r, t.reg r = s.reg r) ∧ (∀ a, t.byteAt a = s.byteAt a)) ∧
    (s.platform.debug = .mayChange → Wrote (Config.debugWrites s.hostCalls s.debugView) s t)

/-- 46_system sections 1 and 2 (decisions D20 and D26, log 6): with any Syscall Handler, `ecall` and `scall` answer a next
state; where the handler raises no fault that state is the same for both and is what the reply makes of the state
handed over; and whatever a reply is, what it makes of a state is what it says and nothing else. -/
def Obligations.SyscallsHandOff : Prop :=
  HandlerOf .ecall 0x80 [[]] ∧ HandlerOf .scall 0x81 [[]] ∧
  (∀ s : State, Returns s →
    ∃ t u, exec .ecall s = .next t ∧ exec .scall s = .next u ∧
      ((syscallReply (s.reg s.platform.regSysno) s).failure = none →
        u = t ∧ t = (s.emit (.syscallIssued (s.reg s.platform.regSysno))).syscallEffect
            (syscallReply (s.reg s.platform.regSysno) s) ∧
        Replied (s.reg s.platform.regSysno) (syscallReply (s.reg s.platform.regSysno) s) s t)) ∧
  ∀ (s : State) (number : Word) (r : HostReply),
    Replied number r s ((s.emit (.syscallIssued number)).syscallEffect r)

/-- R254: the fault the Syscall Handler raises is relayed, on the state the handler left; and a step halts on a syscall
fault only inside `ecall` or `scall`, and only where the handler raised one. -/
def Obligations.SyscallFaultIsRelayed : Prop :=
  (∀ (s : State) (i : Instr) (text : SyscallText), i = .ecall ∨ i = .scall → s.blocked = false →
    (syscallReply s.syscallNumber s).failure = some text →
    exec i s = handleFault (s.pc - s.platform.iunit) (some i.decoded) .syscallFault (.syscall text)
      ((s.emit (.syscallIssued s.syscallNumber)).syscallEffect (syscallReply s.syscallNumber s))) ∧
  (∀ s t : State, s.ended = false → step s = .next t → t.status = .halted (.fault .syscallFault) →
    ∃ w, Fetches s w ∧ (decode w = .ok .ecall ∨ decode w = .ok .scall) ∧
      (syscallReply (entered s).syscallNumber (entered s)).failure ≠ none)

/-- 46_system section 1 (decision D26, the reference handler): the exit call sets the exit flag and the exit code and
nothing else, and the next step ends the run with that code; any other number raises the syscall fault. That the
run's end is a step of its own is log 12's. -/
def Obligations.ReferenceExitCallEndsTheRun : Prop :=
  ∀ (s : State) (w : Diw), Fetches s w → decode w = .ok .ecall ∨ decode w = .ok .scall → Returns s →
    s.platform.syscall = .reference →
    (s.reg s.platform.regSysno = 93 → ∃ t u, step s = .next t ∧ step t = .next u ∧
      t.status = .running ∧ t.exit = true ∧ t.exitCode = s.reg s.platform.regArg0 ∧ t.pc = s.pc + s.platform.iunit ∧
      t.cycle = s.cycle + 1 ∧ (∀ r, t.reg r = s.reg r) ∧ (∀ a, t.byteAt a = s.byteAt a) ∧
      t.trace = s.trace ++ [.syscallIssued 93] ∧ t.cfg = s.cfg ∧ t.imem = s.imem ∧ t.loaded = s.loaded ∧
      t.platform = s.platform ∧ u.status = .halted .exitFlag ∧ u.exitCode = s.reg s.platform.regArg0 ∧
      u.cycle = s.cycle + 1 ∧
      u.trace = s.trace ++ [.syscallIssued 93, .exitReport (s.reg s.platform.regArg0)]) ∧
    (s.reg s.platform.regSysno ≠ 93 → ∃ t, step s = .next t ∧ t.status = .halted (.fault .syscallFault) ∧
      t.exit = false ∧ t.exitCode = s.exitCode)

/-! ### Run start and reset -/

/-- 70_reset_and_hazards section 1: run start seeds the pc and two registers from the Loaded Executable, and writes no other register and no
memory. That run start is one step of the idle machine is log 12's. -/
def Obligations.RunStartSeedsPcAndTwoRegisters : Prop :=
  ∀ s : State, s.status = .idle → ∃ t, step s = .next t ∧ t.pc = s.loaded.runPointer ∧
    (∀ r, r ≠ s.platform.regSp → r ≠ s.platform.regArg0 → t.reg r = s.reg r) ∧
    t.reg s.platform.regArg0 = (if s.platform.x0Hardwired && s.platform.regArg0 == 0 then 0 else s.loaded.heapPointer) ∧
    (s.platform.regSp ≠ s.platform.regArg0 → t.reg s.platform.regSp =
      (if s.platform.x0Hardwired && s.platform.regSp == 0 then 0 else s.loaded.stackPointer)) ∧
    (∀ a, t.byteAt a = s.byteAt a) ∧ t.cycle = s.cycle ∧ t.exit = s.exit ∧ t.exitCode = s.exitCode ∧ t.cfg = s.cfg ∧
    t.imem = s.imem ∧ t.loaded = s.loaded ∧ t.platform = s.platform ∧ t.hostCalls = s.hostCalls

/-- 40_dispatch_loop section 3 (decision D25): the run starts where the run pointer, read signed, is above 0, and otherwise
never starts and reports the exit code. That run start with this test is one step is log 12's. -/
def Obligations.RunStartsOnlyAboveZero : Prop :=
  ∀ s : State, s.status = .idle → ∃ t, step s = .next t ∧
    (0 < s.loaded.runPointer.toInt → t.status = .running ∧ t.trace = s.trace) ∧
    (s.loaded.runPointer.toInt ≤ 0 → t.status = .halted .neverStarted ∧ t.trace = s.trace ++ [.exitReport s.exitCode])

/-- 10_state section 6: the values after reset. The seeds are the reference Loader's (log 5), the flags log 2's; no
register is stated whose reset value is the model's own (log 1), but that every one is what run start leaves of the
constructed machine; that run start is one step is log 12's. -/
def Obligations.ResetIsRunStartOfTheConstructed : Prop :=
  step State.constructed = .next State.reset ∧
  State.reset.pc = State.reset.loaded.runPointer ∧ State.reset.reg 2 = State.reset.loaded.stackPointer ∧
  State.reset.reg 10 = State.reset.loaded.heapPointer ∧ State.reset.reg 0 = 0 ∧ State.reset.cycle = 0 ∧
  State.reset.exit = false ∧ State.reset.exitCode = 0 ∧ State.reset.status = .running ∧ State.reset.trace = []

/-! ### What a collaborator sees -/

/-- 40_dispatch_loop section 4: inside a step, the Syscall Handler during `ecall` and `scall` and the Debug Session during
`ebreak` and `sbreak` see the state with the pc already advanced and nothing else of the instruction done. Their free
answers are applied to exactly what they see: to the session the cycle counter too, which the handler does not see
(10_state section 4). What each is given to read is log 6's, log 9's and log 18's. -/
def Obligations.HandOffsShowTheAdvancedPc : Prop :=
  (∀ (s : State) (w : Diw), Fetches s w → decode w = .ok .ecall ∨ decode w = .ok .scall → Returns s →
    s.platform.syscall = .host →
    ∃ (v : SyscallView) (t : State), (∀ r : RegIdx, v.regs[r.toFin] = s.reg r) ∧ v.dmem = s.dmem ∧
      v.pc = s.pc + s.platform.iunit ∧ v.exit = s.exit ∧ v.exitCode = s.exitCode ∧ v.debugOnFault = s.cfg.debugOnFault ∧
      step s = .next t ∧
      (match (Config.syscallReply s.hostCalls (s.reg s.platform.regSysno) v).failure with
        | none => Replied (s.reg s.platform.regSysno)
            (Config.syscallReply s.hostCalls (s.reg s.platform.regSysno) v) (entered s) t
        | some _ => t.status = .halted (.fault .syscallFault))) ∧
  (∀ (s : State) (w : Diw), Fetches s w → decode w = .ok .ebreak ∨ decode w = .ok .sbreak → Returns s →
    s.platform.debug = .mayChange →
    ∃ (v : DebugView) (t : State), (∀ r : RegIdx, v.regs[r.toFin] = s.reg r) ∧ v.dmem = s.dmem ∧
      v.pc = s.pc + s.platform.iunit ∧ v.cycle = s.cycle + 1 ∧ v.exit = s.exit ∧ v.exitCode = s.exitCode ∧
      v.cfg = s.cfg ∧ step s = .next t ∧ Wrote (Config.debugWrites s.hostCalls v) (entered s) t)

/-! ### What the Memory collaborator may refuse -/

/-- 20_memory sections 4 and 6, 60_exceptions section 6: a collaborator about whose refusals nothing is known may refuse any
data access, whole and by its width; the CORE relays its verdict, with no test of its own but what `MISALIGNED` says
the collaborator does. That the verdict is a function of D-space, the kind, the address and the width is log 7's. -/
def Obligations.TheVerdictIsTheMemorys : Prop :=
  ∀ (s : State) (a : Word) (n : Nat), n ∈ [1, 2, 4] → s.platform.admission = .host →
    ((s.memRead a n).isSome =
      (decide (s.platform.misaligned = .bytewise ∨ a.toNat % n = 0) && Config.admits s.dmem .read a n)) ∧
    ∀ v : BitVec (8 * n), (s.memWrite a n v).isSome =
      (decide (s.platform.misaligned = .bytewise ∨ a.toNat % n = 0) && Config.admits s.dmem .write a n)
end

