-- ==== Sys2Proof/Laws/State.lean ====
section
/-! SUPPORT. One lemma per field per update of State, so that no later proof unfolds a record update. -/

namespace Sys2Proof.Machine

/-! ### Outcomes -/

@[simp] theorem next_inj {s t : State} : (Host.Outcome.next s : Host.Outcome State Fault Refusal) = .next t ↔ s = t :=
  ⟨fun h => by cases h; rfl, fun h => by rw [h]⟩

@[simp] theorem fault_ne_next {f : Fault} {t : State} : (Host.Outcome.fault f : Host.Outcome State Fault Refusal) = .next t ↔ False :=
  ⟨fun h => (by cases h), False.elim⟩

@[simp] theorem refused_ne_next {f : Refusal} {t : State} : (Host.Outcome.refused f : Host.Outcome State Fault Refusal) = .next t ↔ False :=
  ⟨fun h => (by cases h), False.elim⟩

/-! ### setPc -/

@[simp] theorem State.setPc_regs (s : State) (t : Word) : (s.setPc t).regs = s.regs := rfl
@[simp] theorem State.setPc_pc (s : State) (t : Word) : (s.setPc t).pc = t := rfl
@[simp] theorem State.setPc_cycle (s : State) (t : Word) : (s.setPc t).cycle = s.cycle := rfl
@[simp] theorem State.setPc_exit (s : State) (t : Word) : (s.setPc t).exit = s.exit := rfl
@[simp] theorem State.setPc_exitCode (s : State) (t : Word) : (s.setPc t).exitCode = s.exitCode := rfl
@[simp] theorem State.setPc_cfg (s : State) (t : Word) : (s.setPc t).cfg = s.cfg := rfl
@[simp] theorem State.setPc_status (s : State) (t : Word) : (s.setPc t).status = s.status := rfl
@[simp] theorem State.setPc_dmem (s : State) (t : Word) : (s.setPc t).dmem = s.dmem := rfl
@[simp] theorem State.setPc_trace (s : State) (t : Word) : (s.setPc t).trace = s.trace := rfl
@[simp] theorem State.setPc_imem (s : State) (t : Word) : (s.setPc t).imem = s.imem := rfl
@[simp] theorem State.setPc_loaded (s : State) (t : Word) : (s.setPc t).loaded = s.loaded := rfl
@[simp] theorem State.setPc_platform (s : State) (t : Word) : (s.setPc t).platform = s.platform := rfl
@[simp] theorem State.setPc_hostCalls (s : State) (t : Word) : (s.setPc t).hostCalls = s.hostCalls := rfl
@[simp] theorem State.setPc_isZeroReg (s : State) (t : Word) (i : RegIdx) : (s.setPc t).isZeroReg i = s.isZeroReg i := rfl
@[simp] theorem State.setPc_reg (s : State) (t : Word) (i : RegIdx) : (s.setPc t).reg i = s.reg i := rfl
@[simp] theorem State.setPc_byteAt (s : State) (t : Word) (x : Word) : (s.setPc t).byteAt x = s.byteAt x := rfl

/-! ### emit -/

@[simp] theorem State.emit_regs (s : State) (e : Event) : (s.emit e).regs = s.regs := rfl
@[simp] theorem State.emit_pc (s : State) (e : Event) : (s.emit e).pc = s.pc := rfl
@[simp] theorem State.emit_cycle (s : State) (e : Event) : (s.emit e).cycle = s.cycle := rfl
@[simp] theorem State.emit_exit (s : State) (e : Event) : (s.emit e).exit = s.exit := rfl
@[simp] theorem State.emit_exitCode (s : State) (e : Event) : (s.emit e).exitCode = s.exitCode := rfl
@[simp] theorem State.emit_cfg (s : State) (e : Event) : (s.emit e).cfg = s.cfg := rfl
@[simp] theorem State.emit_status (s : State) (e : Event) : (s.emit e).status = s.status := rfl
@[simp] theorem State.emit_dmem (s : State) (e : Event) : (s.emit e).dmem = s.dmem := rfl
@[simp] theorem State.emit_trace (s : State) (e : Event) : (s.emit e).trace = s.trace ++ [e] := rfl
@[simp] theorem State.emit_imem (s : State) (e : Event) : (s.emit e).imem = s.imem := rfl
@[simp] theorem State.emit_loaded (s : State) (e : Event) : (s.emit e).loaded = s.loaded := rfl
@[simp] theorem State.emit_platform (s : State) (e : Event) : (s.emit e).platform = s.platform := rfl
@[simp] theorem State.emit_hostCalls (s : State) (e : Event) : (s.emit e).hostCalls = s.hostCalls := rfl
@[simp] theorem State.emit_isZeroReg (s : State) (e : Event) (i : RegIdx) : (s.emit e).isZeroReg i = s.isZeroReg i := rfl
@[simp] theorem State.emit_reg (s : State) (e : Event) (i : RegIdx) : (s.emit e).reg i = s.reg i := rfl
@[simp] theorem State.emit_byteAt (s : State) (e : Event) (x : Word) : (s.emit e).byteAt x = s.byteAt x := rfl

/-! ### countCycle -/

@[simp] theorem State.countCycle_regs (s : State) : (s.countCycle).regs = s.regs := rfl
@[simp] theorem State.countCycle_pc (s : State) : (s.countCycle).pc = s.pc := rfl
@[simp] theorem State.countCycle_cycle (s : State) : (s.countCycle).cycle = s.cycle + 1 := rfl
@[simp] theorem State.countCycle_exit (s : State) : (s.countCycle).exit = s.exit := rfl
@[simp] theorem State.countCycle_exitCode (s : State) : (s.countCycle).exitCode = s.exitCode := rfl
@[simp] theorem State.countCycle_cfg (s : State) : (s.countCycle).cfg = s.cfg := rfl
@[simp] theorem State.countCycle_status (s : State) : (s.countCycle).status = s.status := rfl
@[simp] theorem State.countCycle_dmem (s : State) : (s.countCycle).dmem = s.dmem := rfl
@[simp] theorem State.countCycle_trace (s : State) : (s.countCycle).trace = s.trace := rfl
@[simp] theorem State.countCycle_imem (s : State) : (s.countCycle).imem = s.imem := rfl
@[simp] theorem State.countCycle_loaded (s : State) : (s.countCycle).loaded = s.loaded := rfl
@[simp] theorem State.countCycle_platform (s : State) : (s.countCycle).platform = s.platform := rfl
@[simp] theorem State.countCycle_hostCalls (s : State) : (s.countCycle).hostCalls = s.hostCalls := rfl
@[simp] theorem State.countCycle_isZeroReg (s : State) (i : RegIdx) : (s.countCycle).isZeroReg i = s.isZeroReg i := rfl
@[simp] theorem State.countCycle_reg (s : State) (i : RegIdx) : (s.countCycle).reg i = s.reg i := rfl
@[simp] theorem State.countCycle_byteAt (s : State) (x : Word) : (s.countCycle).byteAt x = s.byteAt x := rfl

/-! ### advancePc -/

@[simp] theorem State.advancePc_regs (s : State) : (s.advancePc).regs = s.regs := rfl
@[simp] theorem State.advancePc_pc (s : State) : (s.advancePc).pc = word (unsigned s.pc + unsigned s.platform.iunit) := rfl
@[simp] theorem State.advancePc_cycle (s : State) : (s.advancePc).cycle = s.cycle := rfl
@[simp] theorem State.advancePc_exit (s : State) : (s.advancePc).exit = s.exit := rfl
@[simp] theorem State.advancePc_exitCode (s : State) : (s.advancePc).exitCode = s.exitCode := rfl
@[simp] theorem State.advancePc_cfg (s : State) : (s.advancePc).cfg = s.cfg := rfl
@[simp] theorem State.advancePc_status (s : State) : (s.advancePc).status = s.status := rfl
@[simp] theorem State.advancePc_dmem (s : State) : (s.advancePc).dmem = s.dmem := rfl
@[simp] theorem State.advancePc_trace (s : State) : (s.advancePc).trace = s.trace := rfl
@[simp] theorem State.advancePc_imem (s : State) : (s.advancePc).imem = s.imem := rfl
@[simp] theorem State.advancePc_loaded (s : State) : (s.advancePc).loaded = s.loaded := rfl
@[simp] theorem State.advancePc_platform (s : State) : (s.advancePc).platform = s.platform := rfl
@[simp] theorem State.advancePc_hostCalls (s : State) : (s.advancePc).hostCalls = s.hostCalls := rfl
@[simp] theorem State.advancePc_isZeroReg (s : State) (i : RegIdx) : (s.advancePc).isZeroReg i = s.isZeroReg i := rfl
@[simp] theorem State.advancePc_reg (s : State) (i : RegIdx) : (s.advancePc).reg i = s.reg i := rfl
@[simp] theorem State.advancePc_byteAt (s : State) (x : Word) : (s.advancePc).byteAt x = s.byteAt x := rfl

/-! ### endRun -/

@[simp] theorem State.endRun_regs (s : State) (r : HaltReason) : (s.endRun r).regs = s.regs := rfl
@[simp] theorem State.endRun_pc (s : State) (r : HaltReason) : (s.endRun r).pc = s.pc := rfl
@[simp] theorem State.endRun_cycle (s : State) (r : HaltReason) : (s.endRun r).cycle = s.cycle := rfl
@[simp] theorem State.endRun_exit (s : State) (r : HaltReason) : (s.endRun r).exit = s.exit := rfl
@[simp] theorem State.endRun_exitCode (s : State) (r : HaltReason) : (s.endRun r).exitCode = s.exitCode := rfl
@[simp] theorem State.endRun_cfg (s : State) (r : HaltReason) : (s.endRun r).cfg = s.cfg := rfl
@[simp] theorem State.endRun_status (s : State) (r : HaltReason) : (s.endRun r).status = .halted r := rfl
@[simp] theorem State.endRun_dmem (s : State) (r : HaltReason) : (s.endRun r).dmem = s.dmem := rfl
@[simp] theorem State.endRun_trace (s : State) (r : HaltReason) : (s.endRun r).trace = s.trace ++ [.exitReport s.exitCode] := rfl
@[simp] theorem State.endRun_imem (s : State) (r : HaltReason) : (s.endRun r).imem = s.imem := rfl
@[simp] theorem State.endRun_loaded (s : State) (r : HaltReason) : (s.endRun r).loaded = s.loaded := rfl
@[simp] theorem State.endRun_platform (s : State) (r : HaltReason) : (s.endRun r).platform = s.platform := rfl
@[simp] theorem State.endRun_hostCalls (s : State) (r : HaltReason) : (s.endRun r).hostCalls = s.hostCalls := rfl
@[simp] theorem State.endRun_isZeroReg (s : State) (r : HaltReason) (i : RegIdx) : (s.endRun r).isZeroReg i = s.isZeroReg i := rfl
@[simp] theorem State.endRun_reg (s : State) (r : HaltReason) (i : RegIdx) : (s.endRun r).reg i = s.reg i := rfl
@[simp] theorem State.endRun_byteAt (s : State) (r : HaltReason) (x : Word) : (s.endRun r).byteAt x = s.byteAt x := rfl

/-! ### countHandoff -/

@[simp] theorem State.countHandoff_regs (s : State) : (s.countHandoff).regs = s.regs := rfl
@[simp] theorem State.countHandoff_pc (s : State) : (s.countHandoff).pc = s.pc := rfl
@[simp] theorem State.countHandoff_cycle (s : State) : (s.countHandoff).cycle = s.cycle := rfl
@[simp] theorem State.countHandoff_exit (s : State) : (s.countHandoff).exit = s.exit := rfl
@[simp] theorem State.countHandoff_exitCode (s : State) : (s.countHandoff).exitCode = s.exitCode := rfl
@[simp] theorem State.countHandoff_cfg (s : State) : (s.countHandoff).cfg = s.cfg := rfl
@[simp] theorem State.countHandoff_status (s : State) : (s.countHandoff).status = s.status := rfl
@[simp] theorem State.countHandoff_dmem (s : State) : (s.countHandoff).dmem = s.dmem := rfl
@[simp] theorem State.countHandoff_trace (s : State) : (s.countHandoff).trace = s.trace := rfl
@[simp] theorem State.countHandoff_imem (s : State) : (s.countHandoff).imem = s.imem := rfl
@[simp] theorem State.countHandoff_loaded (s : State) : (s.countHandoff).loaded = s.loaded := rfl
@[simp] theorem State.countHandoff_platform (s : State) : (s.countHandoff).platform = s.platform := rfl
@[simp] theorem State.countHandoff_hostCalls (s : State) : (s.countHandoff).hostCalls = s.hostCalls + 1 := rfl
@[simp] theorem State.countHandoff_isZeroReg (s : State) (i : RegIdx) : (s.countHandoff).isZeroReg i = s.isZeroReg i := rfl
@[simp] theorem State.countHandoff_reg (s : State) (i : RegIdx) : (s.countHandoff).reg i = s.reg i := rfl
@[simp] theorem State.countHandoff_byteAt (s : State) (x : Word) : (s.countHandoff).byteAt x = s.byteAt x := rfl

/-! ### setReg -/

@[simp] theorem State.setReg_pc (s : State) (i : RegIdx) (v : Word) : (s.setReg i v).pc = s.pc := by
  unfold State.setReg; split <;> rfl
@[simp] theorem State.setReg_cycle (s : State) (i : RegIdx) (v : Word) : (s.setReg i v).cycle = s.cycle := by
  unfold State.setReg; split <;> rfl
@[simp] theorem State.setReg_exit (s : State) (i : RegIdx) (v : Word) : (s.setReg i v).exit = s.exit := by
  unfold State.setReg; split <;> rfl
@[simp] theorem State.setReg_exitCode (s : State) (i : RegIdx) (v : Word) : (s.setReg i v).exitCode = s.exitCode := by
  unfold State.setReg; split <;> rfl
@[simp] theorem State.setReg_cfg (s : State) (i : RegIdx) (v : Word) : (s.setReg i v).cfg = s.cfg := by
  unfold State.setReg; split <;> rfl
@[simp] theorem State.setReg_status (s : State) (i : RegIdx) (v : Word) : (s.setReg i v).status = s.status := by
  unfold State.setReg; split <;> rfl
@[simp] theorem State.setReg_dmem (s : State) (i : RegIdx) (v : Word) : (s.setReg i v).dmem = s.dmem := by
  unfold State.setReg; split <;> rfl
@[simp] theorem State.setReg_trace (s : State) (i : RegIdx) (v : Word) : (s.setReg i v).trace = s.trace := by
  unfold State.setReg; split <;> rfl
@[simp] theorem State.setReg_imem (s : State) (i : RegIdx) (v : Word) : (s.setReg i v).imem = s.imem := by
  unfold State.setReg; split <;> rfl
@[simp] theorem State.setReg_loaded (s : State) (i : RegIdx) (v : Word) : (s.setReg i v).loaded = s.loaded := by
  unfold State.setReg; split <;> rfl
@[simp] theorem State.setReg_platform (s : State) (i : RegIdx) (v : Word) : (s.setReg i v).platform = s.platform := by
  unfold State.setReg; split <;> rfl
@[simp] theorem State.setReg_hostCalls (s : State) (i : RegIdx) (v : Word) : (s.setReg i v).hostCalls = s.hostCalls := by
  unfold State.setReg; split <;> rfl
@[simp] theorem State.setReg_isZeroReg (s : State) (i : RegIdx) (v : Word) (j : RegIdx) :
    (s.setReg i v).isZeroReg j = s.isZeroReg j := by
  simp [State.isZeroReg]
@[simp] theorem State.setReg_byteAt (s : State) (i : RegIdx) (v : Word) (x : Word) : (s.setReg i v).byteAt x = s.byteAt x := by
  simp [State.byteAt]

/-- A write that is discarded (R22). -/
theorem State.setReg_zero {s : State} {i : RegIdx} (h : s.isZeroReg i = true) (v : Word) : s.setReg i v = s := by
  simp [State.setReg, h]

/-- A write that is not discarded. -/
theorem State.setReg_of_ne {s : State} {i : RegIdx} (h : s.isZeroReg i = false) (v : Word) :
    s.setReg i v = { s with regs := s.regs.set i.toNat v i.isLt } := by
  simp [State.setReg, h]

/-- Register 0 reads as zero where it is hardwired (R22). -/
theorem State.reg_zero {s : State} {i : RegIdx} (h : s.isZeroReg i = true) : s.reg i = 0 := by
  simp [State.reg, h]

/-- Every other register keeps its value. -/
theorem State.setReg_reg_ne {s : State} {i j : RegIdx} (v : Word) (h : j ≠ i) : (s.setReg i v).reg j = s.reg j := by
  by_cases hz : s.isZeroReg i = true
  · rw [State.setReg_zero hz]
  · rw [Bool.not_eq_true] at hz
    have hn : ¬ i.toNat = j.toNat := fun e => h (BitVec.eq_of_toNat_eq e.symm)
    rw [State.setReg_of_ne hz]
    simp [State.reg, State.isZeroReg, hn]

/-- The written register reads the written word, or zero where it is hardwired. -/
theorem State.setReg_reg_self (s : State) (i : RegIdx) (v : Word) :
    (s.setReg i v).reg i = if s.isZeroReg i then 0 else v := by
  by_cases hz : s.isZeroReg i = true
  · rw [State.setReg_zero hz, State.reg_zero hz, if_pos hz]
  · rw [Bool.not_eq_true] at hz
    rw [State.setReg_of_ne hz]
    have : ({ s with regs := s.regs.set i.toNat v i.isLt } : State).isZeroReg i = false := hz
    simp [State.reg, this, hz]

/-! ### What a collaborator sees -/

/-- The register file handed over holds what each register reads as. -/
@[simp] theorem State.regFile_get (s : State) (r : RegIdx) : s.regFile[r.toFin] = s.reg r := by
  simp [State.regFile]

@[simp] theorem State.syscallView_regs (s : State) : s.syscallView.regs = s.regFile := rfl
@[simp] theorem State.syscallView_dmem (s : State) : s.syscallView.dmem = s.dmem := rfl
@[simp] theorem State.syscallView_pc (s : State) : s.syscallView.pc = s.pc := rfl
@[simp] theorem State.syscallView_exit (s : State) : s.syscallView.exit = s.exit := rfl
@[simp] theorem State.syscallView_exitCode (s : State) : s.syscallView.exitCode = s.exitCode := rfl
@[simp] theorem State.syscallView_debugOnFault (s : State) : s.syscallView.debugOnFault = s.cfg.debugOnFault := rfl
@[simp] theorem State.debugView_regs (s : State) : s.debugView.regs = s.regFile := rfl
@[simp] theorem State.debugView_dmem (s : State) : s.debugView.dmem = s.dmem := rfl
@[simp] theorem State.debugView_pc (s : State) : s.debugView.pc = s.pc := rfl
@[simp] theorem State.debugView_cycle (s : State) : s.debugView.cycle = s.cycle := rfl
@[simp] theorem State.debugView_exit (s : State) : s.debugView.exit = s.exit := rfl
@[simp] theorem State.debugView_exitCode (s : State) : s.debugView.exitCode = s.exitCode := rfl
@[simp] theorem State.debugView_cfg (s : State) : s.debugView.cfg = s.cfg := rfl
@[simp] theorem State.emit_syscallView (s : State) (e : Event) : (s.emit e).syscallView = s.syscallView := rfl
@[simp] theorem State.emit_debugView (s : State) (e : Event) : (s.emit e).debugView = s.debugView := rfl

end Sys2Proof.Machine
end

