-- ==== Sys2Proof/Laws/Memory.lean ====
section
/-! SUPPORT. D-space and the instruction store: every memory operation keeps the canonical form; reading after a
write, and what a write leaves alone. -/

namespace Sys2Proof.Machine

/-! ### One byte -/

theorem Memory.lookup_of_above {m : Memory} {a : Nat} (h : Memory.above a m = true) : Memory.lookup m a = Memory.fill := by
  induction m with
  | nil => rfl
  | cons c m ih =>
    simp only [Memory.above, List.all_cons, Bool.and_eq_true, decide_eq_true_eq] at h
    have : ¬ c.1 = a := by omega
    simp only [Memory.lookup, if_neg this]
    exact ih (by simpa [Memory.above] using h.2)

theorem Memory.above_trans {m : Memory} {a b : Nat} (hab : a < b) (h : Memory.above b m = true) : Memory.above a m = true := by
  simp only [Memory.above, List.all_eq_true, decide_eq_true_eq] at h ⊢
  exact fun c hc => Nat.lt_trans hab (h c hc)

/-- The cells of a memory after a write: the old ones, or the written one. -/
theorem Memory.mem_store {m : Memory} {a : Nat} {v : Byte} {c : Host.Cell} (h : c ∈ Memory.store m a v) :
    c ∈ m ∨ c.1 = a := by
  induction m with
  | nil =>
    unfold Memory.store at h
    split at h
    · simp at h
    · simp only [List.mem_singleton] at h; right; rw [h]
  | cons d m ih =>
    obtain ⟨d1, d2⟩ := d
    unfold Memory.store at h
    split at h
    · split at h
      · exact .inl h
      · rcases List.mem_cons.1 h with h | h
        · right; rw [h]
        · exact .inl h
    · split at h
      · split at h
        · exact .inl (List.mem_cons_of_mem _ h)
        · rcases List.mem_cons.1 h with h | h
          · right; rw [h]
          · exact .inl (List.mem_cons_of_mem _ h)
      · rcases List.mem_cons.1 h with h | h
        · left; rw [h]; exact List.mem_cons_self
        · rcases ih h with h | h
          · exact .inl (List.mem_cons_of_mem _ h)
          · exact .inr h

theorem Memory.above_store {m : Memory} {k a : Nat} (v : Byte) (hk : k < a) (h : Memory.above k m = true) :
    Memory.above k (Memory.store m a v) = true := by
  simp only [Memory.above, List.all_eq_true, decide_eq_true_eq] at h ⊢
  intro c hc
  rcases Memory.mem_store hc with hm | hm
  · exact h c hm
  · omega

/-- Writing a byte leaves every other address alone. -/
theorem Memory.lookup_store_ne {m : Memory} {a x : Nat} (v : Byte) (h : x ≠ a) :
    Memory.lookup (Memory.store m a v) x = Memory.lookup m x := by
  induction m with
  | nil =>
    have : ¬ a = x := fun e => h e.symm
    by_cases hv : v = Memory.fill <;> simp [Memory.store, Memory.lookup, hv, this]
  | cons c m ih =>
    obtain ⟨c1, c2⟩ := c
    have hne : ¬ a = x := fun e => h e.symm
    unfold Memory.store
    split
    · split
      · rfl
      · simp [Memory.lookup, hne]
    · split
      · next hac =>
        subst hac
        split <;> simp [Memory.lookup, hne]
      · simp only [Memory.lookup, ih]

/-- Reading the written address gives the byte written. -/
theorem Memory.lookup_store_self {m : Memory} {a : Nat} (v : Byte) (h : Memory.wf m = true) :
    Memory.lookup (Memory.store m a v) a = v := by
  induction m with
  | nil => by_cases hv : v = Memory.fill <;> simp [Memory.store, Memory.lookup, hv]
  | cons c m ih =>
    obtain ⟨c1, c2⟩ := c
    simp only [Memory.wf, Bool.and_eq_true] at h
    unfold Memory.store
    split
    · next hlt =>
      split
      · next hv =>
        rw [hv]
        have : ¬ c1 = a := by omega
        simp only [Memory.lookup, if_neg this]
        exact Memory.lookup_of_above (Memory.above_trans hlt h.1.1.1)
      · simp [Memory.lookup]
    · split
      · next hac =>
        subst hac
        split
        · next hv => rw [hv]; exact Memory.lookup_of_above h.1.1.1
        · simp [Memory.lookup]
      · next hac =>
        have : ¬ c1 = a := fun e => hac e.symm
        simp only [Memory.lookup, if_neg this]
        exact ih h.2

/-- Writing a byte keeps the canonical form. -/
theorem Memory.wf_store {m : Memory} {a : Nat} (v : Byte) (ha : a < 2 ^ 32) (h : Memory.wf m = true) :
    Memory.wf (Memory.store m a v) = true := by
  induction m with
  | nil =>
    by_cases hv : v = Memory.fill
    · simp [Memory.store, Memory.wf, hv]
    · simp [Memory.store, Memory.wf, hv, Memory.above]; exact ha
  | cons c m ih =>
    obtain ⟨c1, c2⟩ := c
    have hc := h
    simp only [Memory.wf, Bool.and_eq_true, decide_eq_true_eq] at h
    obtain ⟨⟨⟨h1, h2⟩, h3⟩, h4⟩ := h
    unfold Memory.store
    split
    · next hlt =>
      split
      · exact hc
      · next hv =>
        have hab : Memory.above a ((c1, c2) :: m) = true := by
          have := Memory.above_trans hlt h1
          simp only [Memory.above] at this
          simp [Memory.above, hlt, this]
        rw [Memory.wf, hab, hc]
        simp [hv]
        exact ha
    · split
      · next hac =>
        split
        · exact h4
        · next hv => rw [Memory.wf, hac, h1, h4]; simp [hv]; exact h2
      · next hnl hne =>
        rw [Memory.wf, Memory.above_store v (by omega) h1, ih h4, h3]
        simp
        exact h2

/-! ### Several bytes -/

theorem Memory.wf_storeBytes {bs : List Byte} {m : Memory} {a : Word} (h : Memory.wf m = true) :
    Memory.wf (Memory.storeBytes m a bs) = true := by
  induction bs generalizing m a with
  | nil => exact h
  | cons b bs ih => exact ih (Memory.wf_store b a.isLt h)

/-- A write of several bytes leaves every address outside them alone. -/
theorem Memory.lookup_storeBytes_ne {bs : List Byte} {m : Memory} {a x : Word}
    (h : ∀ k < bs.length, x ≠ byteAddr a k) : Memory.lookup (Memory.storeBytes m a bs) x.toNat = Memory.lookup m x.toNat := by
  induction bs generalizing m a with
  | nil => rfl
  | cons b bs ih =>
    have h0 : x ≠ a := by simpa [byteAddr] using h 0 (by simp)
    have hx : x.toNat ≠ a.toNat := fun e => h0 (BitVec.eq_of_toNat_eq e)
    rw [Memory.storeBytes, ih, Memory.lookup_store_ne b hx]
    intro k hk
    have := h (k + 1) (by simpa using hk)
    have e : byteAddr (a + 1) k = byteAddr a (k + 1) := by
      simp only [byteAddr, BitVec.add_assoc]
      congr 1
      rw [Nat.add_comm k 1, BitVec.ofNat_add]
      rfl
    rw [e]; exact this

theorem byteAddr_succ (a : Word) (k : Nat) : byteAddr (a + 1) k = byteAddr a (k + 1) := by
  simp only [byteAddr, BitVec.add_assoc]
  congr 1
  rw [Nat.add_comm k 1, BitVec.ofNat_add]
  rfl

/-- The bytes of an access lie at distinct addresses. -/
theorem byteAddr_ne {a : Word} {j k : Nat} (hj : j < 4) (hk : k < 4) (h : j ≠ k) : byteAddr a j ≠ byteAddr a k := by
  intro e
  have e := congrArg BitVec.toNat ((BitVec.add_right_inj a).1 e)
  simp at e
  omega

/-- A write of several bytes puts each where it belongs. -/
theorem Memory.lookup_storeBytes {bs : List Byte} {m : Memory} {a : Word} (hl : bs.length ≤ 4) (hm : Memory.wf m = true)
    (k : Nat) (hk : k < bs.length) : Memory.lookup (Memory.storeBytes m a bs) (byteAddr a k).toNat = bs[k] := by
  induction bs generalizing m a k with
  | nil => simp at hk
  | cons b bs ih =>
    rw [Memory.storeBytes]
    simp only [List.length_cons] at hl hk
    cases k with
    | zero =>
      have e : byteAddr a 0 = a := by simp [byteAddr]
      rw [Memory.lookup_storeBytes_ne, e, Memory.lookup_store_self _ hm]; rfl
      intro j hj
      rw [byteAddr_succ]
      exact byteAddr_ne (by omega) (by omega) (by omega)
    | succ k =>
      rw [← byteAddr_succ, ih (by omega) (Memory.wf_store _ a.isLt hm) k (by omega)]; rfl

theorem inOrder_length (e : Endian) (n : Nat) (v : BitVec (8 * n)) : (inOrder e (toBytes n v)).length = n := by
  unfold inOrder toBytes; split <;> simp

/-- The bytes of a value in address order (R54). -/
theorem inOrder_get (e : Endian) (n : Nat) (v : BitVec (8 * n)) (k : Nat) (hk : k < n) :
    (inOrder e (toBytes n v))[k]'(by rw [inOrder_length]; exact hk) =
      v.extractLsb' (8 * (match e with | .little => k | .big => n - 1 - k)) 8 := by
  unfold inOrder toBytes; split <;> simp

/-! ### The instruction store -/

/-- Placing a word makes it the one that is fetched there. -/
theorem IMem.lookup_place_self {m : IMem} {a : Nat} (w : Diw) : IMem.lookup (IMem.place m a w) a = some w := by
  induction m with
  | nil => simp [IMem.place, IMem.lookup]
  | cons c m ih =>
    obtain ⟨c1, c2⟩ := c
    unfold IMem.place
    split
    · simp [IMem.lookup]
    · split
      · simp [IMem.lookup]
      · next hne =>
        have : ¬ c1 = a := fun e => hne e.symm
        simp only [IMem.lookup, if_neg this, ih]

/-- Placing a word leaves every other instruction address alone. -/
theorem IMem.lookup_place_ne {m : IMem} {a x : Nat} (w : Diw) (h : x ≠ a) :
    IMem.lookup (IMem.place m a w) x = IMem.lookup m x := by
  have hne : ¬ a = x := fun e => h e.symm
  induction m with
  | nil => simp [IMem.place, IMem.lookup, hne]
  | cons c m ih =>
    obtain ⟨c1, c2⟩ := c
    unfold IMem.place
    split
    · simp [IMem.lookup, hne]
    · split
      · next hac => subst hac; simp [IMem.lookup, hne]
      · simp only [IMem.lookup, ih]

/-! ### The verdict and the two data transactions -/

/-- The alignment test, by the parameter (R55). -/
theorem alignedFor_iff (p : Platform) (a : Word) (n : Nat) :
    alignedFor p a n = true ↔ p.misaligned = .bytewise ∨ a.toNat % n = 0 := by
  unfold alignedFor; split <;> simp_all

/-- The verdict that comes from the regions. -/
theorem State.admits_regions {s : State} (h : s.platform.admission = .regions) (k : Access) (a : Word) (n : Nat) :
    s.admits k a n =
      (alignedFor s.platform a n && (List.range n).all (fun j => grants s.platform k (byteAddr a j).toNat)) := by
  simp [State.admits, h]

/-- The verdict of a collaborator about which nothing is known. -/
theorem State.admits_host {s : State} (h : s.platform.admission = .host) (k : Access) (a : Word) (n : Nat) :
    s.admits k a n = (alignedFor s.platform a n && Config.admits s.dmem k a n) := by
  simp [State.admits, h]

/-- Where the regions grant an access, D-space exists. -/
theorem grants_mapped {p : Platform} {k : Access} {a : Nat} (h : grants p k a = true) : mappedAt p a = true := by
  unfold mappedAt
  split
  · simp only [grants, List.any_eq_true, Bool.and_eq_true] at h ⊢
    obtain ⟨r, hr, hg⟩ := h
    exact ⟨r, hr, hg.1⟩
  · rfl

/-- Every byte of an admitted access exists. -/
theorem State.admits_mapped {s : State} {k : Access} {a : Word} {n : Nat} (h : s.admits k a n = true) (j : Nat)
    (hj : j < n) : mappedAt s.platform (byteAddr a j).toNat = true := by
  cases hp : s.platform.admission with
  | regions =>
    simp only [State.admits_regions hp, Bool.and_eq_true, List.all_eq_true, List.mem_range] at h
    exact grants_mapped (h.2 j hj)
  | host => simp [mappedAt, hp]

/-- A read transaction is done exactly where it is admitted (R59). -/
theorem State.memRead_isSome (s : State) (a : Word) (n : Nat) : (s.memRead a n).isSome = s.admits .read a n := by
  unfold State.memRead; split <;> simp_all

/-- A write transaction is done exactly where it is admitted (R59). -/
theorem State.memWrite_isSome (s : State) (a : Word) (n : Nat) (v : BitVec (8 * n)) :
    (s.memWrite a n v).isSome = s.admits .write a n := by
  unfold State.memWrite; split <;> simp_all

/-- All that a write transaction can do (R53): it changes D-space, and keeps its canonical form. -/
theorem State.memWrite_some {s t : State} {a : Word} {n : Nat} {v : BitVec (8 * n)} (h : s.memWrite a n v = some t) :
    s.admits .write a n = true ∧
      t = { s with dmem := Memory.storeBytes s.dmem a (inOrder s.platform.endian (toBytes n v)) } := by
  unfold State.memWrite at h
  split at h
  · next hadm => exact ⟨hadm, (Option.some.inj h).symm⟩
  · simp at h

/-- A write transaction keeps the canonical form of D-space. -/
theorem State.memWrite_wf {s t : State} {a : Word} {n : Nat} {v : BitVec (8 * n)} (h : s.memWrite a n v = some t)
    (hw : Memory.wf s.dmem = true) : Memory.wf t.dmem = true := by
  obtain ⟨-, rfl⟩ := State.memWrite_some h
  exact Memory.wf_storeBytes hw

/-! ### The collaborators' writes -/

/-- All that a collaborator's byte write can do: it changes D-space where D-space exists. -/
theorem State.hostByte_eq (s : State) (c : Word × Byte) :
    s.hostByte c = { s with dmem := if mappedAt s.platform c.1.toNat then Memory.store s.dmem c.1.toNat c.2 else s.dmem } := by
  unfold State.hostByte
  split <;> simp_all

/-- All that a collaborator's writes can do (R236): registers and D-space. -/
theorem State.hostWrites_eq (s : State) (w : HostWrites) :
    s.hostWrites w = { s with regs := (s.hostWrites w).regs, dmem := (s.hostWrites w).dmem } := by
  have hr : ∀ (l : List (RegIdx × Word)) (u : State), l.foldl (fun t c => t.setReg c.1 c.2) u =
      { u with regs := (l.foldl (fun t c => t.setReg c.1 c.2) u).regs } := by
    intro l
    induction l with
    | nil => intro u; rfl
    | cons c l ih =>
      intro u
      simp only [List.foldl_cons]
      rw [ih (u.setReg c.1 c.2)]
      simp
  have hb : ∀ (l : List (Word × Byte)) (u : State), l.foldl State.hostByte u =
      { u with dmem := (l.foldl State.hostByte u).dmem } := by
    intro l
    induction l with
    | nil => intro u; rfl
    | cons c l ih =>
      intro u
      simp only [List.foldl_cons]
      rw [ih (u.hostByte c), State.hostByte_eq]
  unfold State.hostWrites
  rw [hb, hr]

/-- A collaborator's writes keep the canonical form of D-space. -/
theorem State.hostWrites_wf {s : State} (w : HostWrites) (h : Memory.wf s.dmem = true) :
    Memory.wf (s.hostWrites w).dmem = true := by
  have hr : ∀ (l : List (RegIdx × Word)) (u : State), (l.foldl (fun t c => t.setReg c.1 c.2) u).dmem = u.dmem := by
    intro l
    induction l with
    | nil => intro u; rfl
    | cons c l ih => intro u; simp only [List.foldl_cons]; rw [ih]; simp
  have hb : ∀ (l : List (Word × Byte)) (u : State), Memory.wf u.dmem = true →
      Memory.wf (l.foldl State.hostByte u).dmem = true := by
    intro l
    induction l with
    | nil => intro u hu; exact hu
    | cons c l ih =>
      intro u hu
      simp only [List.foldl_cons]
      apply ih
      rw [State.hostByte_eq]
      dsimp only
      split
      · exact Memory.wf_store _ c.1.isLt hu
      · exact hu
  unfold State.hostWrites
  exact hb _ _ (by rw [hr]; exact h)

/-- A collaborator's byte writes change no register and no parameter. -/
theorem State.foldl_hostByte_keeps (l : List (Word × Byte)) (u : State) :
    (l.foldl State.hostByte u).regs = u.regs ∧ (l.foldl State.hostByte u).platform = u.platform := by
  induction l generalizing u with
  | nil => exact ⟨rfl, rfl⟩
  | cons c l ih => simp only [List.foldl_cons]; rw [(ih _).1, (ih _).2, State.hostByte_eq]; exact ⟨rfl, rfl⟩

/-- A register that no write of a collaborator names keeps its value. -/
theorem State.hostWrites_reg (s : State) (w : HostWrites) (r : RegIdx) (h : ∀ c ∈ w.regs, c.1 ≠ r) :
    (s.hostWrites w).reg r = s.reg r := by
  have hk : ∀ u : State, (w.bytes.foldl State.hostByte u).reg r = u.reg r := by
    intro u
    simp [State.reg, State.isZeroReg, State.foldl_hostByte_keeps]
  rw [State.hostWrites, hk]
  generalize w.regs = l at h
  induction l generalizing s with
  | nil => rfl
  | cons c l ih =>
    simp only [List.foldl_cons]
    rw [ih _ (fun d hd => h d (List.mem_cons_of_mem _ hd))]
    exact State.setReg_reg_ne _ (fun e => h c List.mem_cons_self e.symm)

/-- A byte that no write of a collaborator names keeps its value. -/
theorem State.hostWrites_byteAt (s : State) (w : HostWrites) (a : Word) (h : ∀ c ∈ w.bytes, c.1 ≠ a) :
    (s.hostWrites w).byteAt a = s.byteAt a := by
  have hr : ∀ (l : List (RegIdx × Word)) (u : State), (l.foldl (fun t c => t.setReg c.1 c.2) u).byteAt a = u.byteAt a := by
    intro l
    induction l with
    | nil => intro u; rfl
    | cons c l ih => intro u; simp only [List.foldl_cons]; rw [ih]; simp
  have hb : ∀ (l : List (Word × Byte)) (u : State), (∀ c ∈ l, c.1 ≠ a) → (l.foldl State.hostByte u).byteAt a = u.byteAt a := by
    intro l
    induction l with
    | nil => intro u _; rfl
    | cons c l ih =>
      intro u hc
      simp only [List.foldl_cons]
      rw [ih _ (fun d hd => hc d (List.mem_cons_of_mem _ hd)), State.hostByte_eq]
      simp only [State.byteAt]
      split
      · exact Memory.lookup_store_ne _ (fun e => hc c List.mem_cons_self (BitVec.eq_of_toNat_eq e.symm))
      · rfl
  rw [State.hostWrites, hb _ _ h, hr]

/-- A collaborator's register writes change no byte of D-space and no parameter. -/
theorem State.foldl_setReg_keeps (l : List (RegIdx × Word)) (u : State) :
    (l.foldl (fun t c => t.setReg c.1 c.2) u).dmem = u.dmem ∧
      (l.foldl (fun t c => t.setReg c.1 c.2) u).platform = u.platform := by
  induction l generalizing u with
  | nil => exact ⟨rfl, rfl⟩
  | cons c l ih => simp only [List.foldl_cons]; rw [(ih _).1, (ih _).2]; simp

/-- The byte writes of one list and then of another are the byte writes of both. -/
theorem State.hostWrites_append_bytes (s : State) (rs : List (RegIdx × Word)) (l k : List (Word × Byte)) :
    s.hostWrites ⟨rs, l ++ k⟩ = (s.hostWrites ⟨rs, l⟩).hostWrites ⟨[], k⟩ := by
  simp [State.hostWrites, List.foldl_append]

/-- A register reads what a collaborator last wrote to it, or zero where it is hardwired (R22). -/
theorem State.hostWrites_reg_last (s : State) (before after : List (RegIdx × Word)) (r : RegIdx) (v : Word)
    (bytes : List (Word × Byte)) (h : ∀ c ∈ after, c.1 ≠ r) :
    (s.hostWrites ⟨before ++ (r, v) :: after, bytes⟩).reg r = if s.isZeroReg r then 0 else v := by
  have e : s.hostWrites ⟨before ++ (r, v) :: after, bytes⟩ =
      ((before.foldl (fun t c => t.setReg c.1 c.2) s).setReg r v).hostWrites ⟨after, bytes⟩ := by
    simp [State.hostWrites, List.foldl_append]
  rw [e, State.hostWrites_reg _ _ _ h, State.setReg_reg_self]
  simp [State.isZeroReg, State.foldl_setReg_keeps]

/-- A byte that exists reads what a collaborator last wrote to it. -/
theorem State.hostWrites_byteAt_last (s : State) (regs : List (RegIdx × Word)) (before after : List (Word × Byte))
    (a : Word) (v : Byte) (h : ∀ c ∈ after, c.1 ≠ a) (hm : mappedAt s.platform a.toNat = true)
    (hw : Memory.wf s.dmem = true) :
    (s.hostWrites ⟨regs, before ++ (a, v) :: after⟩).byteAt a = v := by
  have hk := State.hostWrites_eq s ⟨regs, before⟩
  have hw' := State.hostWrites_wf ⟨regs, before⟩ hw
  rw [State.hostWrites_append_bytes]
  generalize s.hostWrites ⟨regs, before⟩ = t at hk hw'
  have hm' : mappedAt t.platform a.toNat = true := by rw [hk]; exact hm
  have e : t.hostWrites ⟨[], (a, v) :: after⟩ = (t.hostByte (a, v)).hostWrites ⟨[], after⟩ := rfl
  rw [e, State.hostWrites_byteAt _ _ _ h, State.hostByte_eq, State.byteAt]
  simp only [hm', if_true]
  exact Memory.lookup_store_self v hw'

/-- A byte keeps its value where D-space does not exist (log 8). -/
theorem State.hostWrites_byteAt_unmapped (s : State) (w : HostWrites) (a : Word)
    (hm : mappedAt s.platform a.toNat = false) : (s.hostWrites w).byteAt a = s.byteAt a := by
  have hb : ∀ (l : List (Word × Byte)) (u : State), mappedAt u.platform a.toNat = false →
      (l.foldl State.hostByte u).byteAt a = u.byteAt a := by
    intro l
    induction l with
    | nil => intro u _; rfl
    | cons c l ih =>
      intro u hu
      simp only [List.foldl_cons]
      rw [ih _ (by rw [State.hostByte_eq]; exact hu), State.hostByte_eq]
      simp only [State.byteAt]
      split
      · next hc => exact Memory.lookup_store_ne _ (fun e => by rw [e, hc] at hu; cases hu)
      · rfl
  rw [State.hostWrites, hb _ _ (by rw [(State.foldl_setReg_keeps _ _).2]; exact hm), State.byteAt,
    (State.foldl_setReg_keeps _ _).1]
  rfl

end Sys2Proof.Machine
end

