-- ==== Sys2Proof/Laws/Ops.lean ====
section
/-! SUPPORT. Once for each shared operation, all that it can do; then once for `exec` and once for `step`. -/

namespace Sys2Proof.Machine

/-! ### Collaborators -/

/-- All that a Debug Session can do to the state (R238): registers and D-space, and the hand-off is counted. -/
theorem State.debugEffect_eq (s : State) : s.debugEffect =
    { s with regs := s.debugEffect.regs, dmem := s.debugEffect.dmem, hostCalls := s.hostCalls + 1 } := by
  unfold State.debugEffect
  split
  · rfl
  · rw [State.hostWrites_eq]; rfl

/-- A Debug Session that only inspects changes nothing (R238). -/
theorem State.debugEffect_inspect {s : State} (h : s.platform.debug = .inspect) : s.debugEffect = s.countHandoff := by
  unfold State.debugEffect
  rw [h]

theorem State.debugEffect_wf {s : State} (h : Memory.wf s.dmem = true) : Memory.wf s.debugEffect.dmem = true := by
  unfold State.debugEffect
  split
  · exact h
  · exact State.hostWrites_wf _ h

/-- What a Debug Session keeps (R238). -/
theorem State.debugEffect_keeps (s : State) :
    s.debugEffect.trace = s.trace ∧ s.debugEffect.exitCode = s.exitCode ∧ s.debugEffect.status = s.status ∧
      s.debugEffect.pc = s.pc ∧ s.debugEffect.cycle = s.cycle ∧ s.debugEffect.exit = s.exit ∧ s.debugEffect.cfg = s.cfg ∧
      s.debugEffect.imem = s.imem ∧ s.debugEffect.loaded = s.loaded ∧ s.debugEffect.platform = s.platform := by
  rw [State.debugEffect_eq]; simp

/-- All that a debug hand-off can do (R237). -/
theorem debugLaunch_cases (r : DebugReason) (s : State) :
    (s.blocked = true ∧ debugLaunch r s = .fault .collaboratorNeverReturns) ∨
      (s.blocked = false ∧ debugLaunch r s = .next (s.emit (.debugLaunched r s.pc)).debugEffect) := by
  unfold debugLaunch
  cases h : s.blocked <;> simp

/-- All that the Syscall Handler's reply can do (R236): registers, D-space, `exit`, `exit_code`. -/
theorem State.syscallEffect_eq (s : State) (r : HostReply) : s.syscallEffect r =
    { s with
      regs := (s.syscallEffect r).regs, dmem := (s.syscallEffect r).dmem, hostCalls := s.hostCalls + 1
      exit := s.exit || r.setsExit, exitCode := r.exitCode.getD s.exitCode } := by
  unfold State.syscallEffect
  dsimp only
  rw [State.hostWrites_eq]
  rfl

/-- What the Syscall Handler's reply keeps, and its `exit` and `exit_code` (R236). -/
theorem State.syscallEffect_keeps (s : State) (r : HostReply) :
    (s.syscallEffect r).trace = s.trace ∧ (s.syscallEffect r).status = s.status ∧ (s.syscallEffect r).pc = s.pc ∧
      (s.syscallEffect r).cycle = s.cycle ∧ (s.syscallEffect r).cfg = s.cfg ∧ (s.syscallEffect r).imem = s.imem ∧
      (s.syscallEffect r).loaded = s.loaded ∧ (s.syscallEffect r).platform = s.platform ∧
      (s.syscallEffect r).exit = (s.exit || r.setsExit) ∧ (s.syscallEffect r).exitCode = r.exitCode.getD s.exitCode := by
  rw [State.syscallEffect_eq]; simp

theorem State.syscallEffect_wf {s : State} (r : HostReply) (h : Memory.wf s.dmem = true) :
    Memory.wf (s.syscallEffect r).dmem = true := by
  unfold State.syscallEffect
  exact State.hostWrites_wf _ h

/-! ### Faults -/

/-- All that taking a fault can do (R259): with no debug launch; with one that never returns; with one that does. -/
theorem handleFault_cases (a : Word) (d : Option Decoded) (k : FaultKind) (m : FaultMessage) (s : State) :
    (s.cfg.debugOnFault = false ∧
        handleFault a d k m s = .next ((s.emit (.faultReport a d k m)).endRun (.fault k))) ∨
      (s.cfg.debugOnFault = true ∧ s.blocked = true ∧ handleFault a d k m s = .fault .collaboratorNeverReturns) ∨
      (s.cfg.debugOnFault = true ∧ s.blocked = false ∧
        handleFault a d k m s =
          .next (((s.emit (.faultReport a d k m)).emit (.debugLaunched .fault s.pc)).debugEffect.endRun (.fault k))) := by
  unfold handleFault
  cases hd : s.cfg.debugOnFault
  · simp
  · rcases debugLaunch_cases .fault (s.emit (.faultReport a d k m)) with ⟨hb, he⟩ | ⟨hb, he⟩
    · right; left
      refine ⟨rfl, by simpa [State.blocked] using hb, ?_⟩
      rw [if_pos rfl, he]
    · right; right
      refine ⟨rfl, by simpa [State.blocked] using hb, ?_⟩
      rw [if_pos rfl, he]
      rfl

/-- Where taking a fault answers a next state, what that state is (R259). -/
theorem handleFault_next {a : Word} {d : Option Decoded} {k : FaultKind} {m : FaultMessage} {s t : State}
    (h : handleFault a d k m s = .next t) :
    t.status = .halted (.fault k) ∧
      t.trace = s.trace ++ (.faultReport a d k m ::
        ((if s.cfg.debugOnFault then [.debugLaunched .fault s.pc] else []) ++ [.exitReport s.exitCode])) ∧
      t.exit = s.exit ∧ t.exitCode = s.exitCode ∧ t.pc = s.pc ∧ t.cycle = s.cycle ∧ t.cfg = s.cfg ∧ t.imem = s.imem ∧
      t.loaded = s.loaded ∧ t.platform = s.platform ∧
      (s.cfg.debugOnFault = false ∨ s.platform.debug = .inspect → t.regs = s.regs ∧ t.dmem = s.dmem) := by
  rcases handleFault_cases a d k m s with ⟨h0, h1⟩ | ⟨_, _, h2⟩ | ⟨h0, _, h2⟩
  · rw [h1] at h; cases h; simp [h0]
  · rw [h2] at h; cases h
  · rw [h2] at h; cases h
    simp [State.debugEffect_keeps, h0]
    intro hi
    rw [State.debugEffect_inspect (by simpa using hi)]; simp

/-- All that the syscall hand-off can do (R235, R254). -/
theorem sysHandle_cases (i : Instr) (s : State) :
    (s.blocked = true ∧ sysHandle i s = .fault .collaboratorNeverReturns) ∨
      (s.blocked = false ∧ (syscallReply s.syscallNumber s).failure = none ∧
        sysHandle i s =
          .next ((s.emit (.syscallIssued s.syscallNumber)).syscallEffect (syscallReply s.syscallNumber s))) ∨
      (∃ text, s.blocked = false ∧ (syscallReply s.syscallNumber s).failure = some text ∧
        sysHandle i s = raise i .syscallFault (.syscall text)
          ((s.emit (.syscallIssued s.syscallNumber)).syscallEffect (syscallReply s.syscallNumber s))) := by
  unfold sysHandle
  cases hb : s.blocked
  · cases hf : (syscallReply s.syscallNumber s).failure with
    | none => right; left; simp [hf]
    | some text => right; right; exact ⟨text, rfl, rfl, by simp [hf]⟩
  · left; simp

/-! ### Instructions -/

/-- What the handler of an instruction can do, by shape (R117). -/
inductive Does (i : Instr) (s : State) : Host.Outcome State Fault Refusal → Prop where
  | result (rd : RegIdx) (v : Word) : Does i s (.next (s.setReg rd v))
  | jump (p : Word) : Does i s (.next (s.setPc p))
  | link (rd : RegIdx) (v p : Word) : Does i s (.next ((s.setReg rd v).setPc p))
  | nothing : Does i s (.next s)
  | write (t : State) (a : Word) (n : Nat) (v : BitVec (8 * n)) (hi : storesBytes i = true) (h : s.memWrite a n v = some t) :
      Does i s (.next t)
  | refusedAccess (a : Word) : Does i s (raise i .memoryFault (.badAddress a) s)
  | unimplemented (hi : i.mnemonic.isUnimplemented = true) :
      Does i s (raise i .unimplementedInstruction (.unimplemented i.mnemonic) s)
  | debug (hi : callsDebugger i = true) : Does i s (debugLaunch .breakpoint s)
  | syscall (hi : callsHandler i = true) : Does i s (sysHandle i s)

theorem load_does (i : Instr) (n : Nat) (f : BitVec (8 * n) → Word) (rd base : RegIdx) (offset : Word) (s : State) :
    Does i s (load i n f rd base offset s) := by
  unfold load
  split
  · exact .result ..
  · exact .refusedAccess _

theorem store_does {i : Instr} (hi : storesBytes i = true) (n : Nat) (src base : RegIdx) (offset : Word) (s : State) :
    Does i s (store i n src base offset s) := by
  unfold store
  split
  · next t h => exact .write t _ n _ hi h
  · exact .refusedAccess _

theorem branchIf_does (i : Instr) (c : Bool) (target : Word) (s : State) : Does i s (branchIf c target s) := by
  unfold branchIf
  cases c
  · exact .nothing
  · exact .jump _

/-- Every instruction does one of these. -/
theorem exec_does (i : Instr) (s : State) : Does i s (exec i s) := by
  cases i
  case lbRri => exact load_does ..
  case lbRm => exact load_does ..
  case lhRri => exact load_does ..
  case lhRm => exact load_does ..
  case lwRri => exact load_does ..
  case lwRm => exact load_does ..
  case lbuRri => exact load_does ..
  case lbuRm => exact load_does ..
  case lhuRri => exact load_does ..
  case lhuRm => exact load_does ..
  case sbRri => exact store_does rfl ..
  case sbRm => exact store_does rfl ..
  case shRri => exact store_does rfl ..
  case shRm => exact store_does rfl ..
  case swRri => exact store_does rfl ..
  case swRm => exact store_does rfl ..
  case sll => exact .result ..
  case srl => exact .result ..
  case sra => exact .result ..
  case slli => exact .result ..
  case srli => exact .result ..
  case srai => exact .result ..
  case add => exact .result ..
  case sub => exact .result ..
  case and => exact .result ..
  case or => exact .result ..
  case xor => exact .result ..
  case addi => exact .result ..
  case slt => exact .result ..
  case sltu => exact .result ..
  case andi => exact .unimplemented rfl
  case ori => exact .unimplemented rfl
  case xori => exact .unimplemented rfl
  case slti => exact .unimplemented rfl
  case sltiu => exact .unimplemented rfl
  case lui => exact .unimplemented rfl
  case auipc => exact .unimplemented rfl
  case beq => exact branchIf_does ..
  case bne => exact branchIf_does ..
  case blt => exact branchIf_does ..
  case bge => exact branchIf_does ..
  case bltu => exact branchIf_does ..
  case bgeu => exact branchIf_does ..
  case j => exact .jump _
  case jalI1 => exact .link ..
  case jalRi => exact .link ..
  case jalr => exact .link ..
  case ret => exact .jump _
  case ecall => exact .syscall rfl
  case scall => exact .syscall rfl
  case ebreak => exact .debug rfl
  case sbreak => exact .debug rfl
  case nop => exact .nothing

/-! ### Steps -/

/-- What one step can do, by shape (R110, R112). -/
inductive Steps (s : State) : Host.Outcome State Fault Refusal → Prop where
  | start (h : s.status = .idle) : Steps s (.next (runStart s))
  | exit (h : s.status = .running) (he : s.exit = true) : Steps s (.next (s.endRun .exitFlag))
  | noInstruction (h : s.status = .running) (he : s.exit = false) (hf : s.fetchInstr s.pc = none) :
      Steps s (handleFault s.pc none .memoryFault (.badAddress s.pc) s.countCycle)
  | reject (h : s.status = .running) (he : s.exit = false) (w : Diw) (hf : s.fetchInstr s.pc = some w) (r : Reject)
      (hd : decode w = .error r) : Steps s (rejectDecoded (unpack w) r s.countCycle.advancePc)
  | execute (h : s.status = .running) (he : s.exit = false) (w : Diw) (hf : s.fetchInstr s.pc = some w) (i : Instr)
      (hd : decode w = .ok i) : Steps s (exec i s.countCycle.advancePc)
  | finished (h : s.ended = true) : Steps s (.fault .runEnded)

/-- Every step does one of these. -/
theorem step_steps (s : State) : Steps s (step s) := by
  have hfetch : s.countCycle.fetchInstr s.pc = s.fetchInstr s.pc := rfl
  unfold step
  split
  · next h => exact .start h
  · next h =>
    unfold loopTop
    split
    · next he => exact .exit h he
    · next he =>
      have he : s.exit = false := by simpa using he
      unfold iterate
      rw [hfetch]
      split
      · next hf => exact .noInstruction h he hf
      · next w hf =>
        unfold dispatchWord
        split
        · next i hd => exact .execute h he w hf i hd
        · next r hd => exact .reject h he w hf r hd
  · next h => exact .finished (by simp [State.ended, h])
  · next h => exact .finished (by simp [State.ended, h])

end Sys2Proof.Machine
end

