-- ==== Sys2Proof/Laws/PerInstr.lean ====
section
/-! SUPPORT. Per instruction: an instruction is what `select` makes of its own mnemonic and operands, so the operand
order of the encoder is that of the decoder (R86). -/

/-- The operand list of an instruction selects that instruction. -/
def Sys2Proof.Laws.SelectsItself.Statement (i : Sys2Proof.Instr) : Prop :=
  Sys2Proof.select i.mnemonic i.operands = some i

namespace Sys2Proof.Laws.SelectsItself

theorem lbRri (a b : RegIdx) (i : Word) : Statement (.lbRri a b i) := rfl
theorem lbRm (a : RegIdx) (i : Word) (b : RegIdx) : Statement (.lbRm a i b) := rfl
theorem lhRri (a b : RegIdx) (i : Word) : Statement (.lhRri a b i) := rfl
theorem lhRm (a : RegIdx) (i : Word) (b : RegIdx) : Statement (.lhRm a i b) := rfl
theorem lwRri (a b : RegIdx) (i : Word) : Statement (.lwRri a b i) := rfl
theorem lwRm (a : RegIdx) (i : Word) (b : RegIdx) : Statement (.lwRm a i b) := rfl
theorem lbuRri (a b : RegIdx) (i : Word) : Statement (.lbuRri a b i) := rfl
theorem lbuRm (a : RegIdx) (i : Word) (b : RegIdx) : Statement (.lbuRm a i b) := rfl
theorem lhuRri (a b : RegIdx) (i : Word) : Statement (.lhuRri a b i) := rfl
theorem lhuRm (a : RegIdx) (i : Word) (b : RegIdx) : Statement (.lhuRm a i b) := rfl
theorem sbRri (a b : RegIdx) (i : Word) : Statement (.sbRri a b i) := rfl
theorem sbRm (a : RegIdx) (i : Word) (b : RegIdx) : Statement (.sbRm a i b) := rfl
theorem shRri (a b : RegIdx) (i : Word) : Statement (.shRri a b i) := rfl
theorem shRm (a : RegIdx) (i : Word) (b : RegIdx) : Statement (.shRm a i b) := rfl
theorem swRri (a b : RegIdx) (i : Word) : Statement (.swRri a b i) := rfl
theorem swRm (a : RegIdx) (i : Word) (b : RegIdx) : Statement (.swRm a i b) := rfl
theorem sll (a b c : RegIdx) : Statement (.sll a b c) := rfl
theorem srl (a b c : RegIdx) : Statement (.srl a b c) := rfl
theorem sra (a b c : RegIdx) : Statement (.sra a b c) := rfl
theorem slli (a b : RegIdx) (i : Word) : Statement (.slli a b i) := rfl
theorem srli (a b : RegIdx) (i : Word) : Statement (.srli a b i) := rfl
theorem srai (a b : RegIdx) (i : Word) : Statement (.srai a b i) := rfl
theorem add (a b c : RegIdx) : Statement (.add a b c) := rfl
theorem sub (a b c : RegIdx) : Statement (.sub a b c) := rfl
theorem and (a b c : RegIdx) : Statement (.and a b c) := rfl
theorem or (a b c : RegIdx) : Statement (.or a b c) := rfl
theorem xor (a b c : RegIdx) : Statement (.xor a b c) := rfl
theorem addi (a b : RegIdx) (i : Word) : Statement (.addi a b i) := rfl
theorem andi (ops : List Operand) : Statement (.andi ops) := rfl
theorem ori (ops : List Operand) : Statement (.ori ops) := rfl
theorem xori (ops : List Operand) : Statement (.xori ops) := rfl
theorem slt (a b c : RegIdx) : Statement (.slt a b c) := rfl
theorem sltu (a b c : RegIdx) : Statement (.sltu a b c) := rfl
theorem slti (ops : List Operand) : Statement (.slti ops) := rfl
theorem sltiu (ops : List Operand) : Statement (.sltiu ops) := rfl
theorem lui (ops : List Operand) : Statement (.lui ops) := rfl
theorem auipc (ops : List Operand) : Statement (.auipc ops) := rfl
theorem beq (a b : RegIdx) (i : Word) : Statement (.beq a b i) := rfl
theorem bne (a b : RegIdx) (i : Word) : Statement (.bne a b i) := rfl
theorem blt (a b : RegIdx) (i : Word) : Statement (.blt a b i) := rfl
theorem bge (a b : RegIdx) (i : Word) : Statement (.bge a b i) := rfl
theorem bltu (a b : RegIdx) (i : Word) : Statement (.bltu a b i) := rfl
theorem bgeu (a b : RegIdx) (i : Word) : Statement (.bgeu a b i) := rfl
theorem j (i : Word) : Statement (.j i) := rfl
theorem jalI1 (i : Word) : Statement (.jalI1 i) := rfl
theorem jalRi (a : RegIdx) (i : Word) : Statement (.jalRi a i) := rfl
theorem jalr (a : RegIdx) (i : Word) : Statement (.jalr a i) := rfl
theorem ret : Statement (.ret) := rfl
theorem ecall : Statement (.ecall) := rfl
theorem scall : Statement (.scall) := rfl
theorem ebreak : Statement (.ebreak) := rfl
theorem sbreak : Statement (.sbreak) := rfl
theorem nop : Statement (.nop) := rfl

end Sys2Proof.Laws.SelectsItself
end

