-- ==== Sys2Proof/Laws/Decode.lean ====
section
/-! SUPPORT. The decoder: the registry of handlers, the fields of a packed word, and what dispatch makes of a list. -/

namespace Sys2Proof

/-! ### The registry -/

theorem lookup_known (m : Mnemonic) : lookup (.known m) = some m := by
  cases m <;> rfl

theorem nameOfTag_tag (m : Mnemonic) : nameOfTag m.tag = .known m := by
  cases m <;> rfl

theorem tag_of_nameOfTag {t : Byte} {m : Mnemonic} (h : nameOfTag t = .known m) : m.tag = t := by
  unfold nameOfTag at h
  split at h
  · next x hx => cases h; simpa using List.find?_some hx
  · cases h

theorem nameOfTag_of_no_tag {t : Byte} (h : ∀ m : Mnemonic, m.tag ≠ t) : nameOfTag t = .unregistered t := by
  unfold nameOfTag
  split
  · next x hx => exact absurd (by simpa using List.find?_some hx) (h x)
  · rfl

/-! ### The fields of a packed word (R82, R85) -/

/-- A field is known by its bits. -/
theorem extract_eq_of_bits {n k : Nat} {w : BitVec 64} (v : BitVec n) (h : ∀ j < n, w.getLsbD (k + j) = v.getLsbD j) :
    w.extractLsb' k n = v := by
  apply BitVec.eq_of_getLsbD_eq
  intro j hj
  simp [hj, h j hj]

@[simp] theorem pack_op (d : Decoded) : Diw.op (pack d) = d.name.tag := by
  apply extract_eq_of_bits
  intro j hj
  simp (disch := omega) only [pack, BitVec.getLsbD_append, if_neg]
  congr 1
  omega

@[simp] theorem pack_k0 (d : Decoded) : Diw.k0 (pack d) = kindCode d.ops[0]? := by
  apply extract_eq_of_bits
  intro j hj
  simp (disch := omega) only [pack, BitVec.getLsbD_append, if_neg, if_pos]
  congr 1
  omega

@[simp] theorem pack_k1 (d : Decoded) : Diw.k1 (pack d) = kindCode d.ops[1]? := by
  apply extract_eq_of_bits
  intro j hj
  simp (disch := omega) only [pack, BitVec.getLsbD_append, if_neg, if_pos]
  congr 1
  omega

@[simp] theorem pack_k2 (d : Decoded) : Diw.k2 (pack d) = kindCode d.ops[2]? := by
  apply extract_eq_of_bits
  intro j hj
  simp (disch := omega) only [pack, BitVec.getLsbD_append, if_neg, if_pos]
  congr 1
  omega

@[simp] theorem pack_r0 (d : Decoded) : Diw.r0 (pack d) = regField d.ops[0]? := by
  apply extract_eq_of_bits
  intro j hj
  simp (disch := omega) only [pack, BitVec.getLsbD_append, if_neg, if_pos]
  congr 1
  omega

@[simp] theorem pack_r1 (d : Decoded) : Diw.r1 (pack d) = regField d.ops[1]? := by
  apply extract_eq_of_bits
  intro j hj
  simp (disch := omega) only [pack, BitVec.getLsbD_append, if_neg, if_pos]
  congr 1
  omega

@[simp] theorem pack_r2 (d : Decoded) : Diw.r2 (pack d) = regField d.ops[2]? := by
  apply extract_eq_of_bits
  intro j hj
  simp (disch := omega) only [pack, BitVec.getLsbD_append, if_neg, if_pos]
  congr 1
  omega

@[simp] theorem pack_imm (d : Decoded) : Diw.imm (pack d) = immField d.ops := by
  apply extract_eq_of_bits
  intro j hj
  simp (disch := omega) only [pack, BitVec.getLsbD_append, if_pos]
  congr 1
  omega

/-! ### Operand forms (R86) -/

theorem formR3_isSome (f : RegIdx → RegIdx → RegIdx → Instr) (ops : List Operand) :
    (formR3 f ops).isSome = Form.r3.acceptsKinds ops := by
  rcases ops with _ | ⟨a, _ | ⟨b, _ | ⟨c, _ | ⟨d, r⟩⟩⟩⟩ <;> (try cases a) <;> (try cases b) <;> (try cases c) <;> rfl

theorem formRri_isSome (f : RegIdx → RegIdx → Word → Instr) (ops : List Operand) :
    (formRri f ops).isSome = Form.rri.acceptsKinds ops := by
  rcases ops with _ | ⟨a, _ | ⟨b, _ | ⟨c, _ | ⟨d, r⟩⟩⟩⟩ <;> (try cases a) <;> (try cases b) <;> (try cases c) <;> rfl

theorem formMem_isSome (f : RegIdx → RegIdx → Word → Instr) (g : RegIdx → Word → RegIdx → Instr) (ops : List Operand) :
    (formMem f g ops).isSome = (Form.rri.acceptsKinds ops || Form.rm.acceptsKinds ops) := by
  rcases ops with _ | ⟨a, _ | ⟨b, _ | ⟨c, _ | ⟨d, r⟩⟩⟩⟩ <;> (try cases a) <;> (try cases b) <;> (try cases c) <;> rfl

theorem formI1_isSome (f : Word → Instr) (ops : List Operand) :
    (formI1 f ops).isSome = Form.i1.acceptsKinds ops := by
  rcases ops with _ | ⟨a, _ | ⟨b, _ | ⟨c, _ | ⟨d, r⟩⟩⟩⟩ <;> (try cases a) <;> (try cases b) <;> (try cases c) <;> rfl

theorem formRi_isSome (f : RegIdx → Word → Instr) (ops : List Operand) :
    (formRi f ops).isSome = Form.ri.acceptsKinds ops := by
  rcases ops with _ | ⟨a, _ | ⟨b, _ | ⟨c, _ | ⟨d, r⟩⟩⟩⟩ <;> (try cases a) <;> (try cases b) <;> (try cases c) <;> rfl

theorem formJal_isSome (f : Word → Instr) (g : RegIdx → Word → Instr) (ops : List Operand) :
    (formJal f g ops).isSome = (Form.i1.acceptsKinds ops || Form.ri.acceptsKinds ops) := by
  rcases ops with _ | ⟨a, _ | ⟨b, _ | ⟨c, _ | ⟨d, r⟩⟩⟩⟩ <;> (try cases a) <;> (try cases b) <;> (try cases c) <;> rfl

theorem formN_isSome (f : Instr) (ops : List Operand) :
    (formN f ops).isSome = Form.n.acceptsKinds ops := by
  rcases ops with _ | ⟨a, _ | ⟨b, _ | ⟨c, _ | ⟨d, r⟩⟩⟩⟩ <;> (try cases a) <;> (try cases b) <;> (try cases c) <;> rfl

/-- An operand list selects an instruction exactly where its kinds are those of an accepted form (R86). -/
theorem select_isSome (m : Mnemonic) (ops : List Operand) :
    (select m ops).isSome = m.forms.any (fun f => f.acceptsKinds ops) := by
  cases m <;>
    simp only [select, Mnemonic.forms, List.any_cons, List.any_nil, Bool.or_false, formR3_isSome, formRri_isSome,
      formMem_isSome, formI1_isSome, formRi_isSome, formJal_isSome, formN_isSome] <;> rfl

/-- Accepted kinds are an accepted count. -/
theorem acceptsCount_of_acceptsKinds {f : Form} {ops : List Operand} (h : f.acceptsKinds ops = true) :
    f.acceptsCount ops = true := by
  unfold Form.acceptsKinds at h
  unfold Form.acceptsCount
  cases hk : f.kinds with
  | none => rfl
  | some ks => simp only [hk, beq_iff_eq] at h; simp [h]

/-! ### Dispatch (R90) -/

/-- A list that selects an instruction is dispatched to it. -/
theorem dispatch_of_select {m : Mnemonic} {ops : List Operand} {i : Instr} (h : select m ops = some i) :
    dispatch ⟨.known m, ops⟩ = .ok i := by
  have hk : m.forms.any (fun f => f.acceptsKinds ops) = true := by rw [← select_isSome, h]; rfl
  have hc : m.forms.any (fun f => f.acceptsCount ops) = true := by
    simp only [List.any_eq_true] at hk ⊢
    obtain ⟨f, hf, ha⟩ := hk
    exact ⟨f, hf, acceptsCount_of_acceptsKinds ha⟩
  simp only [dispatch, classify, lookup_known, h, hk, hc]
  cases m.isUnimplemented <;> rfl

/-- All that dispatch can answer. -/
theorem dispatch_cases (d : Decoded) :
    (∃ t, d.name = .unregistered t ∧ dispatch d = .error (.unregistered t)) ∨
      (∃ m i, d.name = .known m ∧ select m d.ops = some i ∧ dispatch d = .ok i) ∨
      (∃ m, d.name = .known m ∧ select m d.ops = none ∧ m.forms.any (fun f => f.acceptsCount d.ops) = false ∧
        dispatch d = .error (.operandCount m)) ∨
      (∃ m, d.name = .known m ∧ select m d.ops = none ∧ m.forms.any (fun f => f.acceptsCount d.ops) = true ∧
        dispatch d = .error (.operandKind m)) := by
  obtain ⟨n, ops⟩ := d
  cases n with
  | unregistered t => exact .inl ⟨t, rfl, rfl⟩
  | known m =>
    right
    cases hs : select m ops with
    | some i => exact .inl ⟨m, i, rfl, hs, dispatch_of_select hs⟩
    | none =>
      right
      have hk : m.forms.any (fun f => f.acceptsKinds ops) = false := by rw [← select_isSome, hs]; rfl
      have hu : m.isUnimplemented = false := by cases m <;> first | rfl | cases hs
      cases hc : m.forms.any (fun f => f.acceptsCount ops)
      · left
        refine ⟨m, rfl, hs, hc, ?_⟩
        simp [dispatch, classify, lookup_known, hs, hu, hc]
      · right
        refine ⟨m, rfl, hs, hc, ?_⟩
        simp [dispatch, classify, lookup_known, hs, hu, hc, hk]

end Sys2Proof
end

