-- ==== Sys2Proof/Laws/Values.lean ====
section
/-! SUPPORT. The integer formulas of the spec (R6) as operations on words. -/

namespace Sys2Proof.Machine

theorem word_toNat (n : Int) : (word n).toNat = (n % 2 ^ 32).toNat := by
  simp [word, BitVec.toNat_ofInt]

theorem word_unsigned (a : Word) : word (unsigned a) = a := by
  simp [word, unsigned]

theorem word_signed (a : Word) : word (signed a) = a := by
  simp [word, signed]

theorem word_add (a b : Word) : word (unsigned a + unsigned b) = a + b := by
  apply BitVec.eq_of_toNat_eq
  rw [word_toNat, BitVec.toNat_add]
  simp only [unsigned]
  omega

theorem word_sub (a b : Word) : word (unsigned a - unsigned b) = a - b := by
  apply BitVec.eq_of_toNat_eq
  rw [word_toNat, BitVec.toNat_sub]
  have := a.isLt
  have := b.isLt
  simp only [unsigned]
  omega

/-- The advanced pc (R115). -/
theorem State.advancePc_pc_eq (s : State) : s.advancePc.pc = s.pc + s.platform.iunit := by
  simp [word_add]

/-- The address of the executing instruction, from the advanced pc (R257). -/
theorem State.instrAddr_eq (s : State) : s.instrAddr = s.pc - s.platform.iunit := by
  simp [State.instrAddr, word_sub]

theorem State.instrAddr_advancePc (s : State) : s.advancePc.instrAddr = s.pc := by
  rw [State.instrAddr_eq, State.advancePc_pc_eq]
  simp

/-- The effective address (R57). -/
theorem State.effectiveAddress_eq (s : State) (b : RegIdx) (i : Word) : s.effectiveAddress b i = s.reg b + i := by
  simp [State.effectiveAddress, word_add]

/-- The shift distance is the distance modulo 32 (R160). -/
theorem shiftDistance_eq (v : Word) : shiftDistance v = v.toNat % 32 := by
  simp [shiftDistance, BitVec.extractLsb'_toNat]

/-! ### The shifter (R167) -/

theorem shiftLeft_toNat (a : Word) (n : Nat) : (shiftLeft a n).toNat = a.toNat * 2 ^ n % 2 ^ 32 := by
  rw [shiftLeft, word_toNat, unsigned]
  have : ((a.toNat : Int) * ((2 ^ n : Nat) : Int)) % 2 ^ 32 = ((a.toNat * 2 ^ n % 2 ^ 32 : Nat) : Int) := by push_cast; rfl
  rw [this]; rfl

theorem shiftRightLogical_toNat (a : Word) (n : Nat) : (shiftRightLogical a n).toNat = a.toNat / 2 ^ n := by
  rw [shiftRightLogical, word_toNat, unsigned]
  have : ((a.toNat : Int).fdiv ((2 ^ n : Nat) : Int)) = ((a.toNat / 2 ^ n : Nat) : Int) := by
    rw [Int.fdiv_eq_ediv_of_nonneg _ (by positivity)]; push_cast; rfl
  rw [this]
  have h1 : a.toNat / 2 ^ n < 2 ^ 32 := Nat.lt_of_le_of_lt (Nat.div_le_self _ _) a.isLt
  generalize a.toNat / 2 ^ n = q at *
  omega

theorem shiftRightArith_toInt (a : Word) (n : Nat) : (shiftRightArith a n).toInt = a.toInt.fdiv (2 ^ n) := by
  rw [shiftRightArith, word, BitVec.toInt_ofInt, signed]
  rw [Int.fdiv_eq_ediv_of_nonneg _ (by positivity), Int.fdiv_eq_ediv_of_nonneg _ (by positivity)]
  push_cast
  have h1 : -2 ^ 31 ≤ a.toInt := BitVec.le_toInt a
  have h2 : a.toInt < 2 ^ 31 := BitVec.toInt_lt
  have hp : (0 : Int) < 2 ^ n := by positivity
  have h3 : -2 ^ 31 ≤ a.toInt / 2 ^ n := by
    rw [Int.le_ediv_iff_mul_le hp]
    nlinarith
  have h4 : a.toInt / 2 ^ n < 2 ^ 31 := by
    rw [Int.ediv_lt_iff_lt_mul hp]
    nlinarith
  exact Int.bmod_eq_of_le (by simpa using h3) (by simpa using h4)

/-! ### Comparisons -/

theorem condEq_iff (a b : Word) : condEq a b = true ↔ a = b := by
  simp [condEq]

theorem condLt_iff (a b : Word) : condLt a b = true ↔ a.toInt < b.toInt :=
  decide_eq_true_iff

theorem condLtu_iff (a b : Word) : condLtu a b = true ↔ a.toNat < b.toNat := by
  rw [condLtu, decide_eq_true_iff, unsigned, unsigned]
  omega

end Sys2Proof.Machine
end

