-- ==== Sys2Proof/Tests/Slice0.lean ====
section
/-! SUPPORT. Tests: ill-formed terms, decoding, one-step vectors of spec/95_test_vectors.md (each test names its row),
and a witness for every obligation that has hypotheses. -/

open Sys2Proof Sys2Proof.Machine Sys2Proof.Machine.Claims

namespace Sys2Proof.Tests

/-! ### Well-formedness -/

/-- Four operands: more than a DIW's three slots (R82). -/
theorem test_illformed_four_operands : Instr.wellFormed (.lui [.reg 1, .reg 2, .reg 3, .reg 4]) = false := by decide

/-- Two immediate words: a DIW has one `imm` field (R82). -/
theorem test_illformed_two_immediates : Instr.wellFormed (.andi [.imm 1, .mem 2 3]) = false := by decide

/-- Three operands, one shared immediate word (R84). -/
theorem test_wellformed_shared_immediate : Instr.wellFormed (.slti [.mem 7 1, .imm 7, .reg 31]) = true := by decide

/-! ### Decoding -/

/-- One word bit by bit: EN8 `lw x5, 8(x6)`, as written out in 95_test_vectors Part C1. -/
theorem test_decode_bit_by_bit :
    decode 0b0001001001110000101001100000000000000000000000000000000000001000 = .ok (.lwRm 5 8 6) := by
  decide

/-- Memory access: words laid out by hand from the field table and the tags (R82, R83, R86), the register fields 30, 17, 9. -/
theorem test_decode_memory :
    decode 0x105BD10080000001 = .ok (.lbRri 30 17 0x80000001) ∧
    decode 0x1073D10080000001 = .ok (.lbRm 30 0x80000001 17) ∧
    decode 0x115BD10080000001 = .ok (.lhRri 30 17 0x80000001) ∧
    decode 0x1173D10080000001 = .ok (.lhRm 30 0x80000001 17) ∧
    decode 0x125BD10080000001 = .ok (.lwRri 30 17 0x80000001) ∧
    decode 0x1273D10080000001 = .ok (.lwRm 30 0x80000001 17) ∧
    decode 0x135BD10080000001 = .ok (.lbuRri 30 17 0x80000001) ∧
    decode 0x1373D10080000001 = .ok (.lbuRm 30 0x80000001 17) ∧
    decode 0x145BD10080000001 = .ok (.lhuRri 30 17 0x80000001) ∧
    decode 0x1473D10080000001 = .ok (.lhuRm 30 0x80000001 17) ∧
    decode 0x155BD10080000001 = .ok (.sbRri 30 17 0x80000001) ∧
    decode 0x1573D10080000001 = .ok (.sbRm 30 0x80000001 17) ∧
    decode 0x165BD10080000001 = .ok (.shRri 30 17 0x80000001) ∧
    decode 0x1673D10080000001 = .ok (.shRm 30 0x80000001 17) ∧
    decode 0x175BD10080000001 = .ok (.swRri 30 17 0x80000001) ∧
    decode 0x1773D10080000001 = .ok (.swRm 30 0x80000001 17) := by
  decide

/-- Shifts: words laid out by hand from the field table and the tags (R82, R83, R86), the register fields 30, 17, 9. -/
theorem test_decode_shift :
    decode 0x2057D14800000000 = .ok (.sll 30 17 9) ∧
    decode 0x2157D14800000000 = .ok (.srl 30 17 9) ∧
    decode 0x2257D14800000000 = .ok (.sra 30 17 9) ∧
    decode 0x235BD10080000001 = .ok (.slli 30 17 0x80000001) ∧
    decode 0x245BD10080000001 = .ok (.srli 30 17 0x80000001) ∧
    decode 0x255BD10080000001 = .ok (.srai 30 17 0x80000001) := by
  decide

/-- Arithmetic: words laid out by hand from the field table and the tags (R82, R83, R86), the register fields 30, 17, 9. -/
theorem test_decode_arith :
    decode 0x3057D14800000000 = .ok (.add 30 17 9) ∧
    decode 0x3157D14800000000 = .ok (.sub 30 17 9) ∧
    decode 0x3257D14800000000 = .ok (.and 30 17 9) ∧
    decode 0x3357D14800000000 = .ok (.or 30 17 9) ∧
    decode 0x3457D14800000000 = .ok (.xor 30 17 9) ∧
    decode 0x355BD10080000001 = .ok (.addi 30 17 0x80000001) ∧
    decode 0x4057D14800000000 = .ok (.slt 30 17 9) ∧
    decode 0x4157D14800000000 = .ok (.sltu 30 17 9) := by
  decide

/-- The seven: words laid out by hand from the field table and the tags (R82, R83, R86), the register fields 30, 17, 9. -/
theorem test_decode_unimplemented :
    decode 0x3677D14880000001 = .ok (.andi [.reg 30, .mem 0x80000001 17, .reg 9]) ∧
    decode 0x3777D14880000001 = .ok (.ori [.reg 30, .mem 0x80000001 17, .reg 9]) ∧
    decode 0x3877D14880000001 = .ok (.xori [.reg 30, .mem 0x80000001 17, .reg 9]) ∧
    decode 0x4277D14880000001 = .ok (.slti [.reg 30, .mem 0x80000001 17, .reg 9]) ∧
    decode 0x4377D14880000001 = .ok (.sltiu [.reg 30, .mem 0x80000001 17, .reg 9]) ∧
    decode 0x5077D14880000001 = .ok (.lui [.reg 30, .mem 0x80000001 17, .reg 9]) ∧
    decode 0x5177D14880000001 = .ok (.auipc [.reg 30, .mem 0x80000001 17, .reg 9]) := by
  decide

/-- Branches: words laid out by hand from the field table and the tags (R82, R83, R86), the register fields 30, 17, 9. -/
theorem test_decode_branch :
    decode 0x605BD10080000001 = .ok (.beq 30 17 0x80000001) ∧
    decode 0x615BD10080000001 = .ok (.bne 30 17 0x80000001) ∧
    decode 0x625BD10080000001 = .ok (.blt 30 17 0x80000001) ∧
    decode 0x635BD10080000001 = .ok (.bge 30 17 0x80000001) ∧
    decode 0x645BD10080000001 = .ok (.bltu 30 17 0x80000001) ∧
    decode 0x655BD10080000001 = .ok (.bgeu 30 17 0x80000001) := by
  decide

/-- Jumps: words laid out by hand from the field table and the tags (R82, R83, R86), the register fields 30, 17, 9. -/
theorem test_decode_jump :
    decode 0x7080000080000001 = .ok (.j 0x80000001) ∧
    decode 0x7180000080000001 = .ok (.jalI1 0x80000001) ∧
    decode 0x7163C00080000001 = .ok (.jalRi 30 0x80000001) ∧
    decode 0x7263C00080000001 = .ok (.jalr 30 0x80000001) ∧
    decode 0x7300000000000000 = .ok .ret := by
  decide

/-- System: words laid out by hand from the field table and the tags (R82, R83, R86), the register fields 30, 17, 9. -/
theorem test_decode_system :
    decode 0x8000000000000000 = .ok .ecall ∧
    decode 0x8100000000000000 = .ok .scall ∧
    decode 0x8200000000000000 = .ok .ebreak ∧
    decode 0x8300000000000000 = .ok .sbreak ∧
    decode 0x8400000000000000 = .ok .nop := by
  decide

/-- The words that are no instruction of the table: DF1, DF2, DF5, DF7, DF14, DF16, DF19 of 95_test_vectors Part C2. -/
theorem test_decode_rejects :
    decode 0x3050A60000000000 = .error (.operandCount .add) ∧
    decode 0x3058A60000000005 = .error (.operandKind .add) ∧
    decode 0x1260A00000000008 = .error (.operandKind .lw) ∧
    decode 0x7340200000000000 = .error (.operandCount .ret) ∧
    decode 0x1774A00800000000 = .error (.operandKind .sw) ∧
    decode 0x0000000000000000 = .error (.unregistered 0) ∧
    decode 0x3940A00000000000 = .error (.unregistered 0x39) := by
  decide

/-- Unread bits do not matter: NC1 to NC4 of 95_test_vectors Part C1. -/
theorem test_decode_unread_bits :
    decode 0x3054A63FDEADBEEF = .ok (.add 5 6 7) ∧
    decode 0x7311200000001234 = .ok .ret ∧
    decode 0x7084600000000180 = .ok (.j 0x180) ∧
    decode 0x3558A0F8FFFFFFFF = .ok (.addi 5 0 0xFFFFFFFF) := by
  decide

/-- The canonical words EN1, EN6, EN9, EN10, EN12 of 95_test_vectors Part C1, packed. -/
theorem test_encode_canonical :
    encode .ret = 0x7300000000000000 ∧
    encode (.add 31 30 29) = 0x3057FEE800000000 ∧
    encode (.lwRri 5 6 8) = 0x1258A60000000008 ∧
    encode (.swRm 1 0xFFFFFFFC 2) = 0x17702200FFFFFFFC ∧
    encode (.lui [.reg 5, .imm 0x12345]) = 0x5060A00000012345 := by
  decide

/-- A table word of 64 bits is read as it stands. -/
theorem test_decodeTableWord : decodeTableWord 64 0x1270A60000000008 = some (.lwRm 5 8 6) := by decide

/-! ### One step -/

/-- The state of a vector of 95_test_vectors: this word at 0x100, `pc` there, these registers and bytes, the rest 0. -/
def vec (w : Diw) (regs : List (RegIdx × Word)) (bytes : List (Nat × Byte)) : State :=
  { State.constructed with
    pc := 0x100, status := .running, imem := [(0x100, w)]
    regs := regs.foldl (fun v c => v.set c.1.toNat c.2 c.1.isLt) (Vector.replicate 32 0)
    dmem := bytes.foldl (fun m c => Memory.store m c.1 c.2) [] }

/-- The same on another platform. -/
def onPlatform (p : Platform) (s : State) : State := { s with platform := p }

/-- The state after a step. -/
def next? : Host.Outcome State Fault Refusal → Option State
  | .next t => some t
  | .fault _ => none
  | .refused _ => none

/-- After one step: a register, the pc, the cycle count, the status. -/
def regAfter (r : RegIdx) (s : State) : Option (Word × Word × BitVec 64 × Status) :=
  (next? (step s)).map (fun t => (t.reg r, t.pc, t.cycle, t.status))

/-- After one step: the listed bytes of D-space and the pc. -/
def memAfter (s : State) : Option (Memory × Word) :=
  (next? (step s)).map (fun t => (t.dmem, t.pc))

/-- After one step: the events, the status, the pc, the exit flag and code. -/
def eventsAfter (s : State) : Option (List Event × Status × Word × Bool × Word) :=
  (next? (step s)).map (fun t => (t.trace, t.status, t.pc, t.exit, t.exitCode))

/-- MA1. -/
theorem test_lb_negative :
    regAfter 5 (vec 0x1070A60000000000 [(6, 0x00010000)] [(0x10000, 0x80)]) = some (0xFFFFFF80, 0x101, 1, .running) := by
  decide

/-- MA3. -/
theorem test_lb_positive :
    regAfter 5 (vec 0x1070A60000000000 [(6, 0x00010000)] [(0x10000, 0x7F)]) = some (0x0000007F, 0x101, 1, .running) := by
  decide

/-- MA2. -/
theorem test_lbu :
    regAfter 5 (vec 0x1370A60000000000 [(6, 0x00010000)] [(0x10000, 0x80)]) = some (0x00000080, 0x101, 1, .running) := by
  decide

/-- MA11. -/
theorem test_lbu_offset :
    regAfter 5 (vec 0x1370A60000000003 [(6, 0x00010000)] [(0x10000, 0x44), (0x10001, 0x33), (0x10002, 0x22), (0x10003, 0x11)]) = some (0x00000011, 0x101, 1, .running) := by
  decide

/-- MA4. -/
theorem test_lh :
    regAfter 5 (vec 0x1170A60000000000 [(6, 0x00010000)] [(0x10000, 0x34), (0x10001, 0x92)]) = some (0xFFFF9234, 0x101, 1, .running) := by
  decide

/-- MA23b: MISALIGNED = bytewise. -/
theorem test_lh_bytewise :
    regAfter 5 (onPlatform { misaligned := .bytewise } (vec 0x1170A60000000001 [(6, 0x00010000)] [(0x10000, 0x44), (0x10001, 0x33), (0x10002, 0x22), (0x10003, 0x11)])) = some (0x00002233, 0x101, 1, .running) := by
  decide

/-- MA5. -/
theorem test_lhu :
    regAfter 5 (vec 0x1470A60000000000 [(6, 0x00010000)] [(0x10000, 0x34), (0x10001, 0x92)]) = some (0x00009234, 0x101, 1, .running) := by
  decide

/-- MA5b: ENDIAN = big. -/
theorem test_lhu_big :
    regAfter 5 (onPlatform { endian := .big } (vec 0x1470A60000000000 [(6, 0x00010000)] [(0x10000, 0x34), (0x10001, 0x92)])) = some (0x00003492, 0x101, 1, .running) := by
  decide

/-- MA7. -/
theorem test_lw_three_operands :
    regAfter 5 (vec 0x1258A60000000000 [(6, 0x00010000)] [(0x10000, 0x44), (0x10001, 0x33), (0x10002, 0x22), (0x10003, 0x11)]) = some (0x11223344, 0x101, 1, .running) := by
  decide

/-- MA12: the effective address wraps. -/
theorem test_lw_wraps :
    regAfter 5 (vec 0x1270A60000010008 [(6, 0xFFFFFFFC)] [(0x10004, 0x78), (0x10005, 0x56), (0x10006, 0x34), (0x10007, 0x12)]) = some (0x12345678, 0x101, 1, .running) := by
  decide

/-- MA10b: X0_HARDWIRED = false. -/
theorem test_lw_x0_writable :
    regAfter 0 (onPlatform { x0Hardwired := false } (vec 0x1270060000000000 [(6, 0x00010000)] [(0x10000, 0x44), (0x10001, 0x33), (0x10002, 0x22), (0x10003, 0x11)])) = some (0x11223344, 0x101, 1, .running) := by
  decide

/-- MA13. -/
theorem test_sb :
    memAfter (vec 0x1570A60000000003 [(5, 0x123456F0), (6, 0x00010000)] []) = some ([(0x10003, 0xF0)], 0x101) := by
  decide

/-- MA17: the byte becomes the fill and is no longer listed. -/
theorem test_sb_zero_register :
    memAfter (vec 0x1570060000000000 [(6, 0x00010000)] [(0x10000, 0xAA)]) = some ([], 0x101) := by
  decide

/-- MA14. -/
theorem test_sh :
    memAfter (vec 0x1670A60000000002 [(5, 0x123456F0), (6, 0x00010000)] []) = some ([(0x10002, 0xF0), (0x10003, 0x56)], 0x101) := by
  decide

/-- MA14b: ENDIAN = big. -/
theorem test_sh_big :
    memAfter (onPlatform { endian := .big } (vec 0x1670A60000000002 [(5, 0x123456F0), (6, 0x00010000)] [])) = some ([(0x10002, 0x56), (0x10003, 0xF0)], 0x101) := by
  decide

/-- MA15. -/
theorem test_sw :
    memAfter (vec 0x1770A60000000000 [(5, 0x11223344), (6, 0x00010000)] []) = some ([(0x10000, 0x44), (0x10001, 0x33), (0x10002, 0x22), (0x10003, 0x11)], 0x101) := by
  decide

/-- MA16. -/
theorem test_sw_three_operands :
    memAfter (vec 0x1758A60000000008 [(5, 0x11223344), (6, 0x00010000)] []) = some ([(0x10008, 0x44), (0x10009, 0x33), (0x1000A, 0x22), (0x1000B, 0x11)], 0x101) := by
  decide

/-- MA22: a store across the end of D-space changes no byte. -/
theorem test_sw_across_the_end_faults :
    memAfter (vec 0x1770A60000000000 [(5, 0x11223344), (6, 0x1FFFE)] []) = some ([], 0x101) := by
  decide

/-- SH3. -/
theorem test_sll :
    regAfter 5 (vec 0x2054A63800000000 [(6, 0xC0000001), (7, 0x0000001F)] []) = some (0x80000000, 0x101, 1, .running) := by
  decide

/-- SH11. -/
theorem test_sll_one_register :
    regAfter 5 (vec 0x2054A52800000000 [(5, 0x00000003)] []) = some (0x00000018, 0x101, 1, .running) := by
  decide

/-- SH5: a distance of 33 is 1. -/
theorem test_srl :
    regAfter 5 (vec 0x2154A63800000000 [(6, 0x80000000), (7, 0x00000021)] []) = some (0x40000000, 0x101, 1, .running) := by
  decide

/-- SH6: a distance of 32 is 0. -/
theorem test_srl_by_32 :
    regAfter 5 (vec 0x2154A63800000000 [(6, 0x80000000), (7, 0x00000020)] []) = some (0x80000000, 0x101, 1, .running) := by
  decide

/-- SH9. -/
theorem test_sra :
    regAfter 5 (vec 0x2254A63800000000 [(6, 0x80000000), (7, 0xFFFFFFFF)] []) = some (0xFFFFFFFF, 0x101, 1, .running) := by
  decide

/-- SH10. -/
theorem test_sra_positive :
    regAfter 5 (vec 0x2254A63800000000 [(6, 0x7FFFFFF0), (7, 0x00000004)] []) = some (0x07FFFFFF, 0x101, 1, .running) := by
  decide

/-- SH15. -/
theorem test_slli :
    regAfter 5 (vec 0x2358A600FFFFFFFF [(6, 0x00000003)] []) = some (0x80000000, 0x101, 1, .running) := by
  decide

/-- SH18. -/
theorem test_srli :
    regAfter 5 (vec 0x2458A60000000004 [(6, 0xFFFFFFF0)] []) = some (0x0FFFFFFF, 0x101, 1, .running) := by
  decide

/-- SH21. -/
theorem test_srai :
    regAfter 5 (vec 0x2558A60000000024 [(6, 0xFFFFFFF0)] []) = some (0xFFFFFFFF, 0x101, 1, .running) := by
  decide

/-- SH22. -/
theorem test_srai_by_32 :
    regAfter 5 (vec 0x2558A60000000020 [(5, 0x00000055), (6, 0x87654321)] []) = some (0x87654321, 0x101, 1, .running) := by
  decide

/-- AL2. -/
theorem test_add_wraps :
    regAfter 5 (vec 0x3054A63800000000 [(5, 0x00000055), (6, 0xFFFFFFFF), (7, 0x00000001)] []) = some (0x00000000, 0x101, 1, .running) := by
  decide

/-- AL6. -/
theorem test_add_one_register :
    regAfter 5 (vec 0x3054A52800000000 [(5, 0x40000000)] []) = some (0x80000000, 0x101, 1, .running) := by
  decide

/-- AL5. -/
theorem test_sub_order :
    regAfter 5 (vec 0x3154A63800000000 [(6, 0x0000000A), (7, 0x00000003)] []) = some (0x00000007, 0x101, 1, .running) := by
  decide

/-- AL3. -/
theorem test_sub_wraps :
    regAfter 5 (vec 0x3154A63800000000 [(6, 0x80000000), (7, 0x00000001)] []) = some (0x7FFFFFFF, 0x101, 1, .running) := by
  decide

/-- AL7. -/
theorem test_and :
    regAfter 5 (vec 0x3254A63800000000 [(6, 0xFF00FF00), (7, 0x0FF00FF0)] []) = some (0x0F000F00, 0x101, 1, .running) := by
  decide

/-- AL8. -/
theorem test_or :
    regAfter 5 (vec 0x3354A63800000000 [(6, 0xFF00FF00), (7, 0x0FF00FF0)] []) = some (0xFFF0FFF0, 0x101, 1, .running) := by
  decide

/-- AL9. -/
theorem test_xor :
    regAfter 5 (vec 0x3454A63800000000 [(6, 0xFF00FF00), (7, 0x0FF00FF0)] []) = some (0xF0F0F0F0, 0x101, 1, .running) := by
  decide

/-- AL11. -/
theorem test_addi_minus_one :
    regAfter 5 (vec 0x3558A600FFFFFFFF [] []) = some (0xFFFFFFFF, 0x101, 1, .running) := by
  decide

/-- AL13. -/
theorem test_addi_x0_discarded :
    regAfter 0 (vec 0x3558060000000005 [(6, 0x00000001)] []) = some (0x00000000, 0x101, 1, .running) := by
  decide

/-- AL20. -/
theorem test_slt_signed :
    regAfter 5 (vec 0x4054A63800000000 [(6, 0xFFFFFFFF)] []) = some (0x00000001, 0x101, 1, .running) := by
  decide

/-- AL23. -/
theorem test_slt_equal :
    regAfter 5 (vec 0x4054A63000000000 [(5, 0x00000055), (6, 0x00000007)] []) = some (0x00000000, 0x101, 1, .running) := by
  decide

/-- AL24. -/
theorem test_sltu_unsigned :
    regAfter 5 (vec 0x4154A63800000000 [(5, 0x00000055), (6, 0xFFFFFFFF)] []) = some (0x00000000, 0x101, 1, .running) := by
  decide

/-- AL27. -/
theorem test_sltu_x0 :
    regAfter 5 (vec 0x4154A03800000000 [(7, 0x00000009)] []) = some (0x00000001, 0x101, 1, .running) := by
  decide

/-- UN1 to UN9: what one of the seven leaves of `x[5]`, and its fault. -/
def unAfter (w : Diw) : Option (Word × Word × BitVec 64 × Status) :=
  regAfter 5 (vec w [(5, 0x55), (6, 0xFFFFFFFF)] [])

/-- The outcome every one of UN1 to UN9 has. -/
def unFault : Option (Word × Word × BitVec 64 × Status) :=
  some (0x55, 0x101, 1, .halted (.fault .unimplementedInstruction))

/-- UN1. -/
theorem test_lui : unAfter 0x5060A00000012345 = unFault := by decide

/-- UN2. -/
theorem test_auipc : unAfter 0x5160A00000000000 = unFault := by decide

/-- UN3. -/
theorem test_xori : unAfter 0x3858A600FFFFFFFF = unFault := by decide

/-- UN4. -/
theorem test_ori : unAfter 0x3758A60000000001 = unFault := by decide

/-- UN5. -/
theorem test_andi : unAfter 0x3658A600000000FF = unFault := by decide

/-- UN6. -/
theorem test_slti : unAfter 0x4258A60000000000 = unFault := by decide

/-- UN7. -/
theorem test_sltiu : unAfter 0x4358A60000000001 = unFault := by decide

/-- UN9. -/
theorem test_slti_one_operand : unAfter 0x4240A00000000000 = unFault := by decide

/-- BR1. -/
theorem test_beq_taken :
    regAfter 5 (vec 0x6058A60000000200 [(5, 7), (6, 7)] []) = some (7, 0x200, 1, .running) := by
  decide

/-- BR2. -/
theorem test_beq_not_taken :
    regAfter 5 (vec 0x6058A60000000200 [(5, 7), (6, 8)] []) = some (7, 0x101, 1, .running) := by
  decide

/-- BR3. -/
theorem test_bne_taken :
    regAfter 5 (vec 0x6158A60000000200 [(5, 3), (6, 0)] []) = some (3, 0x200, 1, .running) := by
  decide

/-- BR18: the target is taken as it stands. -/
theorem test_bne_any_target :
    regAfter 5 (vec 0x6158A000FFFFFFF0 [(5, 1), (6, 0)] []) = some (1, 0xFFFFFFF0, 1, .running) := by
  decide

/-- BR5. -/
theorem test_blt_signed :
    regAfter 5 (vec 0x6258A60000000200 [(5, 0xFFFFFFFF), (6, 0)] []) = some (0xFFFFFFFF, 0x200, 1, .running) := by
  decide

/-- BR7. -/
theorem test_blt_equal :
    regAfter 5 (vec 0x6258A60000000200 [(5, 5), (6, 5)] []) = some (5, 0x101, 1, .running) := by
  decide

/-- BR8. -/
theorem test_bge_signed :
    regAfter 5 (vec 0x6358A60000000200 [(5, 0xFFFFFFFF), (6, 0)] []) = some (0xFFFFFFFF, 0x101, 1, .running) := by
  decide

/-- BR10. -/
theorem test_bge_equal :
    regAfter 5 (vec 0x6358A60000000200 [(5, 5), (6, 5)] []) = some (5, 0x200, 1, .running) := by
  decide

/-- BR11. -/
theorem test_bltu_unsigned :
    regAfter 5 (vec 0x6458A60000000200 [(5, 0xFFFFFFFF), (6, 0)] []) = some (0xFFFFFFFF, 0x101, 1, .running) := by
  decide

/-- BR12. -/
theorem test_bltu_taken :
    regAfter 5 (vec 0x6458A60000000200 [(5, 0), (6, 0xFFFFFFFF)] []) = some (0, 0x200, 1, .running) := by
  decide

/-- BR14. -/
theorem test_bgeu_unsigned :
    regAfter 5 (vec 0x6558A60000000200 [(5, 0xFFFFFFFF), (6, 0)] []) = some (0xFFFFFFFF, 0x200, 1, .running) := by
  decide

/-- BR16. -/
theorem test_bgeu_equal :
    regAfter 5 (vec 0x6558A60000000200 [(5, 5), (6, 5)] []) = some (5, 0x200, 1, .running) := by
  decide

/-- JP1. -/
theorem test_j :
    regAfter 1 (vec 0x7080000000000180 [(1, 0x00000055)] []) = some (0x00000055, 0x180, 1, .running) := by
  decide

/-- JP2. -/
theorem test_jal_default_link :
    regAfter 1 (vec 0x7180000000000110 [(1, 0x00000055)] []) = some (0x00000101, 0x110, 1, .running) := by
  decide

/-- JP9. -/
theorem test_jal_to_itself :
    regAfter 1 (vec 0x7180000000000100 [] []) = some (0x00000101, 0x100, 1, .running) := by
  decide

/-- JP3. -/
theorem test_jal_named_link :
    regAfter 5 (vec 0x7160A00000000110 [(1, 0x00000055)] []) = some (0x00000101, 0x110, 1, .running) := by
  decide

/-- JP4: the link is discarded. -/
theorem test_jal_x0 :
    regAfter 0 (vec 0x7160000000000110 [(1, 0x00000055)] []) = some (0x00000000, 0x110, 1, .running) := by
  decide

/-- JP5. -/
theorem test_jalr :
    regAfter 1 (vec 0x7260200000000120 [(1, 0x00000055)] []) = some (0x00000101, 0x120, 1, .running) := by
  decide

/-- JP7. -/
theorem test_ret :
    regAfter 1 (vec 0x7300000000000000 [(1, 0x80000000)] []) = some (0x80000000, 0x80000000, 1, .running) := by
  decide

/-- SY1. -/
theorem test_ecall_exit :
    eventsAfter (vec 0x8000000000000000 [(10, 7), (17, 93)] []) = some ([.syscallIssued 93], .running, 0x101, true, 7) := by
  decide

/-- SY3: the events of the fault stand after the syscall's; the exit code is the default 0. -/
theorem test_ecall_unknown :
    eventsAfter (vec 0x8000000000000000 [(10, 7), (17, 64)] []) =
      some ([.syscallIssued 64, .faultReport 0x100 (some ⟨.known .ecall, []⟩) .syscallFault (.syscall .unknownSyscall),
        .exitReport 0], .halted (.fault .syscallFault), 0x101, false, 0) := by
  decide

/-- SY2: the exit code is -1 when read as signed. -/
theorem test_scall_exit :
    eventsAfter (vec 0x8100000000000000 [(10, 0xFFFFFFFF), (17, 93)] []) =
      some ([.syscallIssued 93], .running, 0x101, true, 0xFFFFFFFF) := by
  decide

/-- SY4. -/
theorem test_ebreak :
    eventsAfter (vec 0x8200000000000000 [(5, 1)] []) =
      some ([.debugLaunched .breakpoint 0x101], .running, 0x101, false, 0) := by
  decide

/-- SY5. -/
theorem test_sbreak :
    eventsAfter (vec 0x8300000000000000 [(5, 1)] []) =
      some ([.debugLaunched .breakpoint 0x101], .running, 0x101, false, 0) := by
  decide

/-- SY6. -/
theorem test_nop : eventsAfter (vec 0x8400000000000000 [(5, 1)] []) = some ([], .running, 0x101, false, 0) := by
  decide

/-! ### The loop -/

/-- DF1: a wrong operand count is reported as a malformed instruction, at the instruction's own address. -/
theorem test_malformed_reported :
    eventsAfter (vec 0x3050A60000000000 [] []) =
      some ([.faultReport 0x100 (some ⟨.known .add, [.reg 5, .reg 6]⟩) .malformedInstruction .operandCount, .exitReport 0],
        .halted (.fault .malformedInstruction), 0x101, false, 0) := by
  decide

/-- DF14: the count is right for one form and the kinds for none. -/
theorem test_malformed_kind :
    eventsAfter (vec 0x1774A00800000000 [] []) =
      some ([.faultReport 0x100 (some ⟨.known .sw, [.reg 5, .mem 0 0, .reg 1]⟩) .malformedInstruction .operandKind,
        .exitReport 0], .halted (.fault .malformedInstruction), 0x101, false, 0) := by
  decide

/-- DF17 and LP4: an unregistered tag aborts and reports nothing, `cfg.debug_on_fault` or not. -/
theorem test_unregistered_aborts :
    eventsAfter { vec 0x9054A52800000000 [] [] with cfg := ⟨false, true⟩ } =
      some ([], .aborted .internalDefect, 0x101, false, 0) := by
  decide

/-- LP1: a fetch fault keeps the pc, counts the cycle and reports no instruction. -/
theorem test_fetch_fault :
    eventsAfter { vec 0 [] [] with pc := 0x300 } =
        some ([.faultReport 0x300 none .memoryFault (.badAddress 0x300), .exitReport 0], .halted (.fault .memoryFault), 0x300,
          false, 0) ∧
      (next? (step { vec 0 [] [] with pc := 0x300 })).map (fun t => t.cycle) = some 1 := by
  decide

/-- P4b: the order of the events of a fault with `cfg.debug_on_fault`. -/
theorem test_debug_on_fault :
    eventsAfter { vec 0x5060A00000012345 [] [] with cfg := ⟨false, true⟩ } =
      some ([.faultReport 0x100 (some ⟨.known .lui, [.reg 5, .imm 0x12345]⟩) .unimplementedInstruction (.unimplemented .lui),
        .debugLaunched .fault 0x101, .exitReport 0], .halted (.fault .unimplementedInstruction), 0x101, false, 0) := by
  decide

/-- LP2: with the exit flag set nothing is fetched; P1's exit code is reported. -/
theorem test_exit_flag :
    eventsAfter { vec 0x3558A00000000001 [] [] with exit := true, exitCode := 55 } =
      some ([.exitReport 55], .halted .exitFlag, 0x100, true, 55) := by
  decide

/-- P8a and P8b: the run never starts. -/
theorem test_never_started :
    eventsAfter { State.constructed with loaded := ⟨0, 0x20000, 0x18000⟩ } =
        some ([.exitReport 0], .halted .neverStarted, 0, false, 0) ∧
      eventsAfter { State.constructed with loaded := ⟨0x80000100, 0x20000, 0x18000⟩ } =
        some ([.exitReport 0], .halted .neverStarted, 0x80000100, false, 0) := by
  decide

/-- The first instruction after reset is the one placed there. -/
theorem test_withFetchWord : regAfter 5 (State.reset.withFetchWord 64 0x3558A00000000007) = some (7, 0x101, 1, .running) := by
  decide

/-! ### Witnesses: for each obligation with hypotheses, states and operands that meet them together -/

/-- A run about to fetch this word. -/
theorem fetches_vec (w : Diw) (regs : List (RegIdx × Word)) (bytes : List (Nat × Byte)) : Fetches (vec w regs bytes) w :=
  ⟨rfl, rfl, rfl⟩

theorem witness_DecodeEncodeRoundTrip :
    Instr.wellFormed (.auipc [.reg 31, .mem 0xFFFFFFFF 0, .imm 0xFFFFFFFF]) = true ∧
      Instr.wellFormed (.lui []) = true ∧ Instr.wellFormed (.swRm 31 0x80000000 0) = true := by
  decide

/-- Two words that agree where the first is read, and differ. -/
def differUnread (w v : Diw) : Bool :=
  w != v && (List.range 64).all (fun b => !(readsBit w b) || w.getLsbD b == v.getLsbD b)

/-- One pair of different words for each kind of unread field: bits 34:32 and `imm` after three registers (NC1); all fields
after an absent slot 0 (NC2), 1 (NC3) and 2; the register field of an `Imm` slot 0, 1 and 2 (NC4); `imm` after one
`Reg` operand and after two. -/
theorem witness_UnreadBitsIgnored :
    differUnread 0x3054A63800000000 0x3054A63FDEADBEEF ∧ differUnread 0x7300000000000000 0x733FFFFFFFFFFFFF ∧
      differUnread 0x7080000000000180 0x708FFFFF00000180 ∧ differUnread 0x1270A60000000008 0x1270A6FF00000008 ∧
      differUnread 0x7080000000000180 0x7083E00000000180 ∧ differUnread 0x7260200000000120 0x72603F0000000120 ∧
      differUnread 0x3558A000FFFFFFFF 0x3558A0F8FFFFFFFF ∧ differUnread 0x4240A00000000000 0x424CBFFFFFFFFFFF ∧
      differUnread 0x3050A60000000000 0x3050A6FFFFFFFFFF := by
  decide

theorem witness_DecodesExactlyTheTableRows :
    decode 0x7160A00000000110 = .ok (.jalRi 5 0x110) ∧
      (⟨.jal, .ri, 0x7160000000000000, 0xFFFC000000000000⟩ : OpRow) ∈ opcodeTable ∧
      (⟨.jal, .ri, 0x7160000000000000, 0xFFFC000000000000⟩ : OpRow).matches 0x7160A00000000110 = true := by
  decide

theorem witness_NoWordMatchesTwoRows :
    (⟨.lui, .any, 0x5000000000000000, 0xFF00000000000000⟩ : OpRow) ∈ opcodeTable ∧
      (⟨.lui, .any, 0x5000000000000000, 0xFF00000000000000⟩ : OpRow).matches 0x50FFFFFFFFFFFFFF = true := by
  decide

theorem witness_SupportedIsExactlyTheHandled : Mnemonic.isUnimplemented .auipc = true := rfl

theorem witness_ReportsTheFetchedInstruction : decode 0x3054A63FDEADBEEF = .ok (.add 5 6 7) := by decide

theorem witness_StepRunsTheDecodedInstruction :
    Fetches (vec 0x3054A63800000000 [] []) 0x3054A63800000000 ∧ decode 0x3054A63800000000 = .ok (.add 5 6 7) ∧
      Instr.wellFormed (.add 5 6 7) = true :=
  ⟨fetches_vec .., by decide, rfl⟩

theorem witness_FetchFaultKeepsThePc : State.reset.status = .running ∧ State.reset.exit = false ∧
    IMem.lookup State.reset.imem State.reset.pc.toNat = none := ⟨rfl, rfl, rfl⟩

theorem witness_UnregisteredTagAborts :
    Fetches (vec 0x9054A52800000000 [] []) 0x9054A52800000000 ∧ ∀ m : Mnemonic, m.tag ≠ Diw.op 0x9054A52800000000 :=
  ⟨fetches_vec .., by intro m; cases m <;> decide⟩

theorem witness_ExitFlagEndsTheRun : ({ State.reset with exit := true } : State).status = .running ∧
    ({ State.reset with exit := true } : State).exit = true := ⟨rfl, rfl⟩

/-- A step that ends a run and a step that does not. -/
theorem witness_ExitReportedOnceAtTheEnd :
    (∃ t, step State.reset = .next t ∧ ∃ r, t.status = .halted r) ∧
      (∃ t, step (vec 0x8400000000000000 [] []) = .next t ∧ ∀ r, t.status ≠ .halted r) :=
  ⟨⟨_, rfl, _, rfl⟩, ⟨_, rfl, fun r h => by cases (show Status.running = .halted r from h)⟩⟩

/-- With the Debug Session launched and without; with a session that may change state but is not launched. -/
theorem witness_TakingAFaultReportsAndHalts :
    Returns State.reset ∧ Returns { State.reset with cfg := ⟨false, true⟩ } ∧
      ({ State.reset with cfg := ⟨false, true⟩ } : State).platform.debug = .inspect ∧
      State.reset.cfg.debugOnFault = false := ⟨rfl, rfl, rfl, rfl⟩

theorem witness_EveryRunningStateSteps :
    Returns State.reset ∧ State.reset.ended = false ∧ State.ended { State.reset with status := .halted .exitFlag } = true ∧
      State.ended { State.reset with status := .aborted .internalDefect } = true := ⟨rfl, rfl, rfl, rfl⟩

/-- A fetch fault, and a fault of an instruction with the Debug Session launched. -/
theorem witness_FaultsArePrecise :
    (State.reset.ended = false ∧ ∃ t, step State.reset = .next t ∧ t.status = .halted (.fault .memoryFault) ∧
      State.reset.cfg.debugOnFault = false) ∧
    (∃ t, step { vec 0x5060A00000012345 [(5, 85)] [] with cfg := ⟨false, true⟩ } = .next t ∧
      t.status = .halted (.fault .unimplementedInstruction) ∧ t.platform.debug = .inspect) :=
  ⟨⟨rfl, _, rfl, rfl, rfl⟩, ⟨_, rfl, rfl, rfl⟩⟩

theorem witness_UnimplementedFaultIsTheSevens :
    State.ended (vec 0x5060A00000012345 [] []) = false ∧ Fetches (vec 0x5060A00000012345 [] []) 0x5060A00000012345 ∧
      ∃ t, step (vec 0x5060A00000012345 [] []) = .next t ∧ t.status = .halted (.fault .unimplementedInstruction) :=
  ⟨rfl, fetches_vec .., _, rfl, rfl⟩

/-- A fetch that is refused, and an access that is refused. -/
theorem witness_MemoryFaultOnlyWhereRefused :
    (State.reset.ended = false ∧ ∃ t, step State.reset = .next t ∧ t.status = .halted (.fault .memoryFault)) ∧
    (State.ended (vec 0x1270A00000000000 [] []) = false ∧
      ∃ t, step (vec 0x1270A00000000000 [] []) = .next t ∧ t.status = .halted (.fault .memoryFault)) :=
  ⟨⟨rfl, _, rfl, rfl⟩, ⟨rfl, _, rfl, rfl⟩⟩

/-- A step that counts a cycle and two that do not; it is the hypothesis of every statement about a step. -/
theorem witness_CycleCountsIterations :
    (∃ t, step State.reset = .next t ∧ t.cycle = 1) ∧ (∃ t, step State.constructed = .next t ∧ t.cycle = 0) ∧
      (∃ t, step { State.reset with exit := true } = .next t ∧ t.cycle = 0) :=
  ⟨⟨_, rfl, rfl⟩, ⟨_, rfl, rfl⟩, ⟨_, rfl, rfl⟩⟩

theorem witness_ParametersNeverChange : ∃ t, step (vec 0x1770A60000000000 [(6, 0x10000)] []) = .next t := ⟨_, rfl⟩

/-- A session that inspects; a session that may change state, with an instruction that does not launch it. -/
theorem witness_NoInstructionReadsCycleOrSymbols :
    State.reset.platform.debug = .inspect ∧
      (onPlatform { debug := .mayChange, syscall := .host } State.reset).platform.debug = .mayChange ∧
      callsDebugger .ecall = false ∧
      (onPlatform { debug := .mayChange, syscall := .host } State.reset).cfg.debugOnFault = false := ⟨rfl, rfl, rfl, rfl⟩

/-- A step with the exit flag set, and a step that sets it. -/
theorem witness_OnlySyscallsSetExit :
    (∃ t, step { State.reset with exit := true } = .next t) ∧
      (∃ t, step (vec 0x8000000000000000 [(10, 7), (17, 93)] []) = .next t ∧ t.exit ≠ false ∧ t.exitCode ≠ 0) :=
  ⟨⟨_, rfl⟩, ⟨_, rfl, by decide, by decide⟩⟩

theorem witness_OnlyStoresAndHandoffsChangeMemory :
    ∃ t, step (vec 0x8400000000000000 [] [(0x10000, 1)]) = .next t ∧
      (vec 0x8400000000000000 [] [(0x10000, 1)]).platform.debug = .inspect ∧
      ∀ w i, Fetches (vec 0x8400000000000000 [] [(0x10000, 1)]) w → decode w = .ok i →
        storesBytes i = false ∧ callsHandler i = false := by
  refine ⟨_, rfl, rfl, fun w i h hd => ?_⟩
  have hw : some (0x8400000000000000 : Diw) = some w := h.2.2
  cases hw
  have hi : (.ok .nop : Except Reject Instr) = .ok i := hd
  cases hi
  exact ⟨rfl, rfl⟩

/-- An instruction that completes and one that faults. -/
theorem witness_OnlyControlTransfersMoveThePc :
    (∃ t, exec (.add 5 6 7) State.reset = .next t) ∧ transfersControl (.add 5 6 7) = false ∧
      (∃ t, exec (.lwRm 5 0 0) State.reset = .next t) ∧ transfersControl (.lwRm 5 0 0) = false :=
  ⟨⟨_, rfl⟩, rfl, ⟨_, rfl⟩, rfl⟩

theorem inv_reset : Inv State.reset where
  memory := rfl
  inside := rfl
  code := rfl
  zeroReg := fun _ => rfl
  trace := rfl
  before := fun _ => ⟨rfl, rfl, rfl⟩

theorem witness_EveryStepKeepsTheInvariant : Inv State.reset ∧ ∃ t, step State.reset = .next t :=
  ⟨inv_reset, _, rfl⟩

/-- One write and read of each width, at the last address of that width. -/
theorem witness_ReadAfterWriteGivesTheValue :
    Memory.wf State.reset.dmem = true ∧
      (∃ t, State.reset.memWrite 0x1FFFF 1 0xAB = some t ∧ t.admits .read 0x1FFFF 1 = true) ∧
      (∃ t, State.reset.memWrite 0x1FFFE 2 0xABCD = some t ∧ t.admits .read 0x1FFFE 2 = true) ∧
      (∃ t, State.reset.memWrite 0x1FFFC 4 0xABCD0123 = some t ∧ t.admits .read 0x1FFFC 4 = true) :=
  ⟨rfl, ⟨_, rfl, rfl⟩, ⟨_, rfl, rfl⟩, ⟨_, rfl, rfl⟩⟩

theorem witness_ReadsAssembleBytesInOrder :
    State.reset.admits .read 0x10000 1 = true ∧ State.reset.admits .read 0x10000 2 = true ∧
      State.reset.admits .read 0x10000 4 = true := by
  decide

/-- The first and the last word, a misaligned one under either setting, one past the end. -/
theorem witness_ReferencePlatformAdmits :
    State.reset.platform.admission = .regions ∧ State.reset.platform.dspace = ({} : Platform).dspace ∧
      State.reset.admits .read 0x10000 4 = true ∧ State.reset.admits .write 0x1FFFC 4 = true ∧
      State.reset.admits .read 0x10002 4 = false ∧ State.reset.admits .write 0x1FFFF 2 = false ∧
      (onPlatform { misaligned := .bytewise } State.reset).platform.dspace = ({} : Platform).dspace ∧
      (onPlatform { misaligned := .bytewise } State.reset).admits .read 0x10002 4 = true ∧
      (onPlatform { misaligned := .bytewise } State.reset).admits .write 0x1FFFF 2 = false := by
  decide

/-- The first clause of every `HandlerOf`: a fetched word with the handler's tag and a kind sequence it does not accept,
one with a wrong count and one with a wrong kind, for the forms of a load, a store, a shift, a branch, a jump
and a system instruction (DF4, DF5, DF14, DF3, DF13, DF9, DF7, DF12). -/
def misfits (w : Diw) (m : Mnemonic) (kinds : List (List Kind)) : Bool :=
  Diw.op w == m.tag && !(kinds.contains ((unpack w).ops.map Operand.kind))

theorem witness_HandlerOf :
    misfits 0x1240A00000000000 .lw memKinds ∧ misfits 0x1260A00000000008 .lw memKinds ∧
      misfits 0x1774A00800000000 .sw memKinds ∧ misfits 0x3554A63800000000 .addi [[.reg, .reg, .imm]] ∧
      misfits 0x3050A60000000000 .add [[.reg, .reg, .reg]] ∧ misfits 0x3058A60000000005 .add [[.reg, .reg, .reg]] ∧
      misfits 0x6050A60000000000 .beq [[.reg, .reg, .imm]] ∧ misfits 0x7270250000000000 .jalr [[.reg, .imm]] ∧
      misfits 0x7158220000000110 .jal [[.imm], [.reg, .imm]] ∧ misfits 0x7340200000000000 .ret [[]] ∧
      misfits 0x8041400000000000 .ecall [[]] ∧ misfits 0x8480000000000000 .nop [[]] := by
  decide

/-- A read that is granted and one that is refused, for one byte, two and four. -/
theorem witness_LoadRules :
    (∃ v, State.reset.memRead (State.reset.effectiveAddress 0 0x10000) 1 = some v) ∧
      State.reset.memRead (State.reset.effectiveAddress 0 0xFFFF) 1 = none ∧
      (∃ v, State.reset.memRead (State.reset.effectiveAddress 0 0x1FFFE) 2 = some v) ∧
      State.reset.memRead (State.reset.effectiveAddress 0 0x1FFFF) 2 = none ∧
      (∃ v, State.reset.memRead (State.reset.effectiveAddress 0 0x1FFFC) 4 = some v) ∧
      State.reset.memRead (State.reset.effectiveAddress 0 0x20000) 4 = none :=
  ⟨⟨_, rfl⟩, rfl, ⟨_, rfl⟩, rfl, ⟨_, rfl⟩, rfl⟩

/-- A write that is granted and one that is refused, for one byte, two and four. -/
theorem witness_StoresTruncateAndWriteTheirBytes :
    Memory.wf State.reset.dmem = true ∧
      State.reset.admits .write (State.reset.effectiveAddress 0 0x1FFFF) 1 = true ∧
      State.reset.admits .write (State.reset.effectiveAddress 0 0x20000) 1 = false ∧
      State.reset.admits .write (State.reset.effectiveAddress 0 0x10000) 2 = true ∧
      State.reset.admits .write (State.reset.effectiveAddress 0 0x10001) 2 = false ∧
      State.reset.admits .write (State.reset.effectiveAddress 0 0x1FFFC) 4 = true ∧
      State.reset.admits .write (State.reset.effectiveAddress 0 0x1FFFE) 4 = false := by
  decide

/-- The Debug Session is not launched; it is launched and inspects. -/
theorem witness_TheSevenRaiseUnimplemented :
    Returns State.reset ∧ State.reset.cfg.debugOnFault = false ∧ Returns { State.reset with cfg := ⟨false, true⟩ } ∧
      ({ State.reset with cfg := ⟨false, true⟩ } : State).platform.debug = .inspect := ⟨rfl, rfl, rfl, rfl⟩

/-- Both sides of every branch condition: equal words, and -1 beside 0 in either order. -/
theorem witness_BranchRules :
    (State.reset.reg 0 = State.reset.reg 1) ∧ (vec 0 [(5, 0xFFFFFFFF)] []).reg 5 ≠ (vec 0 [(5, 0xFFFFFFFF)] []).reg 6 ∧
      ((vec 0 [(5, 0xFFFFFFFF)] []).reg 5).toInt < ((vec 0 [(5, 0xFFFFFFFF)] []).reg 6).toInt ∧
      ¬ ((vec 0 [(5, 0xFFFFFFFF)] []).reg 6).toInt < ((vec 0 [(5, 0xFFFFFFFF)] []).reg 5).toInt ∧
      ((vec 0 [(5, 0xFFFFFFFF)] []).reg 6).toNat < ((vec 0 [(5, 0xFFFFFFFF)] []).reg 5).toNat ∧
      ¬ ((vec 0 [(5, 0xFFFFFFFF)] []).reg 5).toNat < ((vec 0 [(5, 0xFFFFFFFF)] []).reg 6).toNat := by
  decide

/-- P3: a call at 0x101 of a `ret` at 0x105. -/
def callState : State :=
  { State.constructed with
    pc := 0x101, status := .running, imem := [(0x101, 0x7180000000000105), (0x105, 0x7300000000000000)] }

theorem witness_ReturnAfterJalResumesAfterIt :
    Fetches callState 0x7180000000000105 ∧ decode 0x7180000000000105 = .ok (.jalI1 0x105) ∧
      IMem.lookup callState.imem (0x105 : Word).toNat = some 0x7300000000000000 ∧ decode 0x7300000000000000 = .ok .ret ∧
      ¬ (callState.platform.x0Hardwired = true ∧ callState.platform.regRa = 0) :=
  ⟨⟨rfl, rfl, rfl⟩, by decide, rfl, by decide, by decide⟩

theorem witness_JalLinksTheAdvancedPc :
    ¬ (State.reset.platform.x0Hardwired = true ∧ State.reset.platform.regRa = 0) := by
  decide

/-- A session that inspects and one that may change state. -/
theorem witness_BreakpointsLaunchTheDebugger :
    Returns State.reset ∧ State.reset.platform.debug = .inspect ∧
      Returns (onPlatform { debug := .mayChange } State.reset) ∧
      (onPlatform { debug := .mayChange } State.reset).platform.debug = .mayChange := ⟨rfl, rfl, rfl, rfl⟩

/-- Writes of a collaborator: two registers named twice, register 0 among them; the last byte of D-space named twice; a
byte past it. -/
def someWrites : HostWrites where
  regs := [(5, 1), (0, 7), (5, 2), (0, 9)]
  bytes := [(0x1FFFF, 0xAA), (0x20000, 0xBB), (0x1FFFF, 0xCC)]

/-- The hypotheses of every clause of `Wrote`: the last write to a register, to register 0, to an existing byte; a
register and a byte that are not named; a byte named where D-space does not exist. -/
theorem witness_Wrote :
    (someWrites.regs = [(5, 1), (0, 7)] ++ (5, 2) :: [(0, 9)] ∧ ∀ c ∈ ([(0, 9)] : List (RegIdx × Word)), c.1 ≠ 5) ∧
      someWrites.regs = [(5, 1), (0, 7), (5, 2)] ++ (0, 9) :: [] ∧ (∀ c ∈ someWrites.regs, c.1 ≠ 31) ∧
      someWrites.bytes = [(0x1FFFF, 0xAA), (0x20000, 0xBB)] ++ (0x1FFFF, 0xCC) :: [] ∧
      mappedAt State.reset.platform (0x1FFFF : Word).toNat = true ∧ Memory.wf State.reset.dmem = true ∧
      (∀ c ∈ someWrites.bytes, c.1 ≠ 0x10000) ∧ mappedAt State.reset.platform (0x20000 : Word).toNat = false :=
  ⟨⟨rfl, by simp⟩, rfl, by simp [someWrites], rfl, rfl, rfl, by simp [someWrites], rfl⟩

/-- R236 and R22: the last write counts, and a write to the hardwired register 0 is discarded. -/
theorem test_hostWrites :
    (State.reset.hostWrites someWrites).reg 5 = 2 ∧ (State.reset.hostWrites someWrites).reg 0 = 0 ∧
      (State.reset.hostWrites someWrites).dmem = [(0x1FFFF, 0xCC)] := by
  decide

/-- The exit call of the reference handler raises no fault. -/
theorem witness_SyscallsHandOff :
    Returns (vec 0 [(17, 93)] []) ∧
      (syscallReply ((vec 0 [(17, 93)] []).reg (vec 0 [(17, 93)] []).platform.regSysno) (vec 0 [(17, 93)] [])).failure = none :=
  ⟨rfl, rfl⟩

/-- A free verdict, with either setting of `MISALIGNED`. -/
theorem witness_TheVerdictIsTheMemorys :
    (onPlatform { admission := .host } State.reset).platform.admission = .host ∧
      (onPlatform { admission := .host, misaligned := .bytewise } State.reset).platform.admission = .host := ⟨rfl, rfl⟩

/-- A free handler at a system call; a session that may change state at a breakpoint. -/
theorem witness_HandOffsShowTheAdvancedPc :
    Fetches (onPlatform { syscall := .host } (vec 0x8000000000000000 [] [])) 0x8000000000000000 ∧
      decode 0x8000000000000000 = .ok .ecall ∧
      Returns (onPlatform { syscall := .host } (vec 0x8000000000000000 [] [])) ∧
      (onPlatform { syscall := .host } (vec 0x8000000000000000 [] [])).platform.syscall = .host ∧
      Fetches (onPlatform { debug := .mayChange } (vec 0x8200000000000000 [] [])) 0x8200000000000000 ∧
      decode 0x8200000000000000 = .ok .ebreak ∧
      Returns (onPlatform { debug := .mayChange } (vec 0x8200000000000000 [] [])) ∧
      (onPlatform { debug := .mayChange } (vec 0x8200000000000000 [] [])).platform.debug = .mayChange :=
  ⟨⟨rfl, rfl, by decide⟩, by decide, rfl, rfl, ⟨rfl, rfl, by decide⟩, by decide, rfl, rfl⟩

/-- R124: the pc that a collaborator sees inside a handler is the advanced one. -/
theorem test_viewsShowTheAdvancedPc :
    (entered (vec 0x8000000000000000 [] [])).syscallView.pc = 0x101 ∧
      (entered (vec 0x8200000000000000 [] [])).debugView.pc = 0x101 := by
  decide

/-- A number the reference handler does not know, as the instruction and as a step. -/
theorem witness_SyscallFaultIsRelayed :
    State.blocked (vec 0 [(17, 64)] []) = false ∧
      (syscallReply (State.syscallNumber (vec 0 [(17, 64)] [])) (vec 0 [(17, 64)] [])).failure = some .unknownSyscall ∧
      State.ended (vec 0x8100000000000000 [(17, 64)] []) = false ∧
      ∃ t, step (vec 0x8100000000000000 [(17, 64)] []) = .next t ∧ t.status = .halted (.fault .syscallFault) :=
  ⟨rfl, rfl, rfl, _, rfl, rfl⟩

/-- The exit call, and the number above it. -/
theorem witness_ReferenceExitCallEndsTheRun :
    Fetches (vec 0x8000000000000000 [(17, 93)] []) 0x8000000000000000 ∧ decode 0x8000000000000000 = .ok .ecall ∧
      Returns (vec 0x8000000000000000 [(17, 93)] []) ∧ (vec 0x8000000000000000 [(17, 93)] []).platform.syscall = .reference ∧
      (vec 0x8000000000000000 [(17, 93)] []).reg (vec 0x8000000000000000 [(17, 93)] []).platform.regSysno = 93 ∧
      (vec 0x8000000000000000 [(17, 94)] []).reg (vec 0x8000000000000000 [(17, 94)] []).platform.regSysno ≠ 93 :=
  ⟨fetches_vec .., by decide, rfl, rfl, rfl, by decide⟩

theorem witness_RunStartSeedsPcAndTwoRegisters :
    State.constructed.status = .idle ∧ State.constructed.platform.regSp ≠ State.constructed.platform.regArg0 ∧
      (1 : RegIdx) ≠ State.constructed.platform.regSp ∧ (1 : RegIdx) ≠ State.constructed.platform.regArg0 := by
  decide

/-- The least and the greatest run pointer of each clause. -/
theorem witness_RunStartsOnlyAboveZero :
    State.constructed.status = .idle ∧ 0 < (1 : Word).toInt ∧ 0 < (0x7FFFFFFF : Word).toInt ∧ (0 : Word).toInt ≤ 0 ∧
      (0x80000000 : Word).toInt ≤ 0 := by
  decide

end Sys2Proof.Tests
end

