-- ==== Sys2Proof/Proofs/Dispatch.lean ====
section
/-! The step that fetches a word, and the abort on a tag no mnemonic has. -/

namespace Sys2Proof

/-- A word whose tag no mnemonic has is rejected under that tag, whatever its operand fields (R84, R91). -/
theorem decode_of_no_tag {w : Diw} (h : ∀ m : Mnemonic, m.tag ≠ Diw.op w) :
    decode w = .error (.unregistered (Diw.op w)) := by
  have hname : (unpack w).name = .unregistered (Diw.op w) := nameOfTag_of_no_tag h
  simp [decode, dispatch, hname, lookup, MnemName.tag]

end Sys2Proof

namespace Sys2Proof.Machine.Claims

/-- A step that fetches a word is its dispatch with the cycle counted (R112). -/
theorem step_of_fetches {s : State} {w : Diw} (h : Fetches s w) : step s = dispatchWord w s.countCycle := by
  obtain ⟨hstatus, hexit, hword⟩ := h
  have hfetch : s.countCycle.fetchInstr s.pc = some w := hword
  simp [step, hstatus, loopTop, hexit, iterate, hfetch]

/-- The loop's two writes make the state a handler is entered with (R112). -/
theorem countCycle_advancePc (s : State) : s.countCycle.advancePc = entered s := by
  simp [entered, State.countCycle, State.advancePc, word_add]

/-- A fetched word that decodes to nothing is rejected on the entered state (R112, R119). -/
theorem step_of_decode_error {s : State} {w : Diw} {r : Reject} (hf : Fetches s w) (hd : decode w = .error r) :
    step s = rejectDecoded (unpack w) r (entered s) := by
  rw [step_of_fetches hf, dispatchWord, hd, ← countCycle_advancePc]

/-- Settles O11: the word is rejected as unregistered, and that rejection writes the status alone. -/
theorem unregisteredTagAborts : Obligations.UnregisteredTagAborts := by
  intro s w hf htag
  rw [step_of_decode_error hf (decode_of_no_tag htag)]
  rfl

end Sys2Proof.Machine.Claims
end

section
/-! The registry of handlers: every mnemonic is in it, and accepts some operand list (R126). -/

namespace Sys2Proof

/-- An operand of a given kind. -/
def Kind.sample : Kind → Operand
  | .reg => .reg 0
  | .imm => .imm 0
  | .mem => .mem 0 0

/-- An operand list of a given form; the empty one where the form does not examine its operands. -/
def Form.sample (f : Form) : List Operand :=
  (f.kinds.getD []).map Kind.sample

/-- A form accepts its sample. -/
theorem acceptsKinds_sample (f : Form) : f.acceptsKinds f.sample = true := by
  cases f <;> rfl

theorem forms_ne_nil (m : Mnemonic) : m.forms ≠ [] := by
  cases m <;> simp [Mnemonic.forms]

/-- Every mnemonic accepts the sample of one of its forms, so some operand list is dispatched to an instruction. -/
theorem exists_dispatch (m : Mnemonic) : ∃ ops i, dispatch ⟨.known m, ops⟩ = .ok i := by
  obtain ⟨f, hf⟩ := List.exists_mem_of_ne_nil _ (forms_ne_nil m)
  have hsome : (select m f.sample).isSome = true := by
    rw [select_isSome]
    exact List.any_eq_true.mpr ⟨f, hf, acceptsKinds_sample f⟩
  obtain ⟨i, hi⟩ := Option.isSome_iff_exists.mp hsome
  exact ⟨f.sample, i, dispatch_of_select hi⟩

/-- Every mnemonic is listed: the lookup, which searches the registry, finds each. -/
theorem mem_supportedMnemonics (m : Mnemonic) : m ∈ supportedMnemonics :=
  have hfound : registry.find? (· == m) = some m := lookup_known m
  List.mem_of_find?_eq_some hfound

/-- Settles O7: a mnemonic is always listed, always found, and always dispatched for some operand list. -/
theorem supportedIsExactlyTheHandled : Obligations.SupportedIsExactlyTheHandled :=
  ⟨rfl, by decide, fun m => iff_of_true (mem_supportedMnemonics m) (lookup_known m),
    fun m => iff_of_true (mem_supportedMnemonics m) (exists_dispatch m), fun m _ => mem_supportedMnemonics m, fun _ => rfl⟩

end Sys2Proof
end

section
/-! The exit report: what a step appends to the trace, and which steps write the exit code (R122). -/

namespace Sys2Proof.Machine

/-- None of these events reports an exit code. -/
def NoExitReport (es : List Event) : Prop :=
  ∀ c, Event.exitReport c ∉ es

/-- From `s` to `t` the exit code is reported once, last, if the run is halted in `t`, and not at all otherwise (R122). -/
def ReportsExitAtEnd (s t : State) : Prop :=
  ∃ es, t.trace = s.trace ++ es ∧
    ((∃ r, t.status = .halted r) → ∃ fs, es = fs ++ [.exitReport t.exitCode] ∧ NoExitReport fs) ∧
    ((∀ r, t.status ≠ .halted r) → NoExitReport es)

/-- From `s` to `t` the status and the exit code stay, and no exit is reported. -/
def GoesOn (s t : State) : Prop :=
  t.status = s.status ∧ t.exitCode = s.exitCode ∧ ∃ es, t.trace = s.trace ++ es ∧ NoExitReport es

/-! ### Exit reports -/

theorem noExitReport_nil : NoExitReport [] := by
  simp [NoExitReport]

theorem noExitReport_append {es fs : List Event} (hes : NoExitReport es) (hfs : NoExitReport fs) :
    NoExitReport (es ++ fs) := by
  intro c
  simp [hes c, hfs c]

theorem reportsExitAtEnd_of_halted {s t : State} {r : HaltReason} {fs : List Event} (hr : t.status = .halted r)
    (ht : t.trace = s.trace ++ (fs ++ [.exitReport t.exitCode])) (hfs : NoExitReport fs) : ReportsExitAtEnd s t :=
  ⟨_, ht, fun _ => ⟨fs, rfl, hfs⟩, fun hn => absurd hr (hn r)⟩

theorem reportsExitAtEnd_of_not_halted {s t : State} {es : List Event} (hn : ∀ r, t.status ≠ .halted r)
    (ht : t.trace = s.trace ++ es) (hes : NoExitReport es) : ReportsExitAtEnd s t :=
  ⟨es, ht, fun ⟨r, hr⟩ => absurd hr (hn r), fun _ => hes⟩

/-- Events that are no exit reports may come before. -/
theorem ReportsExitAtEnd.after {s u t : State} {es : List Event} (hu : u.trace = s.trace ++ es) (hes : NoExitReport es)
    (h : ReportsExitAtEnd u t) : ReportsExitAtEnd s t := by
  obtain ⟨fs, ht, hhalted, hopen⟩ := h
  refine ⟨es ++ fs, by rw [ht, hu, List.append_assoc], fun hr => ?_, fun hn => noExitReport_append hes (hopen hn)⟩
  obtain ⟨gs, rfl, hgs⟩ := hhalted hr
  exact ⟨es ++ gs, (List.append_assoc ..).symm, noExitReport_append hes hgs⟩

/-- Where the status, the exit code and the trace stay, the run goes on. -/
theorem goesOn_of_same {s t : State} (hstatus : t.status = s.status) (hcode : t.exitCode = s.exitCode)
    (htrace : t.trace = s.trace) : GoesOn s t :=
  ⟨hstatus, hcode, [], by simp [htrace], noExitReport_nil⟩

theorem GoesOn.reportsExitAtEnd {s t : State} (hs : s.status = .running) (h : GoesOn s t) : ReportsExitAtEnd s t := by
  obtain ⟨hstatus, -, es, ht, hes⟩ := h
  exact reportsExitAtEnd_of_not_halted (by simp [hstatus, hs]) ht hes

/-- The end of the loop reports the exit code (R110). -/
theorem endRun_reportsExitAtEnd (s : State) (r : HaltReason) : ReportsExitAtEnd s (s.endRun r) :=
  reportsExitAtEnd_of_halted (fs := []) rfl rfl noExitReport_nil

/-- A fault taken is reported, the Debug Session launched if configured, and then the exit reported (R259). -/
theorem handleFault_reportsExitAtEnd {a : Word} {d : Option Decoded} {k : FaultKind} {m : FaultMessage} {s t : State}
    (h : handleFault a d k m s = .next t) : ReportsExitAtEnd s t := by
  obtain ⟨hstatus, htrace, -, hcode, -⟩ := handleFault_next h
  refine reportsExitAtEnd_of_halted hstatus (by rw [htrace, hcode, List.cons_append]) (fun c => ?_)
  split <;> simp

theorem handleFault_exitCode {a : Word} {d : Option Decoded} {k : FaultKind} {m : FaultMessage} {s t : State}
    (h : handleFault a d k m s = .next t) : t.exitCode = s.exitCode := by
  obtain ⟨-, -, -, hcode, -⟩ := handleFault_next h
  exact hcode

/-! ### Instructions -/

/-- A debug hand-off that returns lets the run go on (R237, R238). -/
theorem debugLaunch_goesOn {r : DebugReason} {s t : State} (h : debugLaunch r s = .next t) : GoesOn s t := by
  obtain ⟨-, hstop⟩ | ⟨-, hgo⟩ := debugLaunch_cases r s
  · rw [hstop] at h; cases h
  · rw [hgo, next_inj] at h
    subst h
    obtain ⟨htrace, hcode, hstatus, -⟩ := State.debugEffect_keeps (s.emit (.debugLaunched r s.pc))
    exact ⟨hstatus, hcode, _, htrace, by simp [NoExitReport]⟩

theorem memWrite_goesOn {s t : State} {a : Word} {n : Nat} {v : BitVec (8 * n)} (h : s.memWrite a n v = some t) :
    GoesOn s t := by
  obtain ⟨-, rfl⟩ := State.memWrite_some h
  exact goesOn_of_same rfl rfl rfl

/-- A handler lets the run go on, takes a fault, or makes the syscall hand-off (R117). -/
theorem exec_next_cases {i : Instr} {s t : State} (h : exec i s = .next t) :
    GoesOn s t ∨ (∃ a d k m, handleFault a d k m s = .next t) ∨ (callsHandler i = true ∧ sysHandle i s = .next t) := by
  have hdoes := exec_does i s
  generalize exec i s = o at h hdoes
  cases hdoes with
  | result rd v => cases h; exact .inl (goesOn_of_same (by simp) (by simp) (by simp))
  | jump p => cases h; exact .inl (goesOn_of_same rfl rfl rfl)
  | link rd v p => cases h; exact .inl (goesOn_of_same (by simp) (by simp) (by simp))
  | nothing => cases h; exact .inl (goesOn_of_same rfl rfl rfl)
  | write u a n v hi hw => cases h; exact .inl (memWrite_goesOn hw)
  | refusedAccess a => exact .inr (.inl ⟨_, _, _, _, h⟩)
  | unimplemented hi => exact .inr (.inl ⟨_, _, _, _, h⟩)
  | debug hi => exact .inl (debugLaunch_goesOn h)
  | syscall hi => exact .inr (.inr ⟨hi, h⟩)

/-- The syscall hand-off reports itself; only if the handler raises does an exit report follow (R235, R254). -/
theorem sysHandle_reportsExitAtEnd {i : Instr} {s t : State} (hs : s.status = .running) (h : sysHandle i s = .next t) :
    ReportsExitAtEnd s t := by
  obtain ⟨htrace, hstatus, -⟩ := State.syscallEffect_keeps (s.emit (.syscallIssued s.syscallNumber))
    (syscallReply s.syscallNumber s)
  have hissued : NoExitReport [.syscallIssued s.syscallNumber] := by simp [NoExitReport]
  obtain ⟨-, hstop⟩ | ⟨-, -, hgo⟩ | ⟨text, -, -, hraise⟩ := sysHandle_cases i s
  · rw [hstop] at h; cases h
  · rw [hgo, next_inj] at h
    subst h
    exact reportsExitAtEnd_of_not_halted (by simp [hstatus, hs]) htrace hissued
  · rw [hraise] at h
    exact (handleFault_reportsExitAtEnd h).after htrace hissued

theorem exec_reportsExitAtEnd {i : Instr} {s t : State} (hs : s.status = .running) (h : exec i s = .next t) :
    ReportsExitAtEnd s t := by
  obtain hgo | ⟨a, d, k, m, hfault⟩ | ⟨-, hcall⟩ := exec_next_cases h
  · exact hgo.reportsExitAtEnd hs
  · exact handleFault_reportsExitAtEnd hfault
  · exact sysHandle_reportsExitAtEnd hs hcall

/-- Only an instruction that calls the Syscall Handler writes the exit code (R30). -/
theorem exec_exitCode {i : Instr} {s t : State} (h : exec i s = .next t) (hi : callsHandler i = false) :
    t.exitCode = s.exitCode := by
  obtain ⟨-, hcode, -⟩ | ⟨a, d, k, m, hfault⟩ | ⟨hcall, -⟩ := exec_next_cases h
  · exact hcode
  · exact handleFault_exitCode hfault
  · simp [hi] at hcall

theorem callsHandler_iff (i : Instr) : callsHandler i = true ↔ i = .ecall ∨ i = .scall := by
  cases i <;> simp [callsHandler, Instr.mnemonic]

/-! ### Steps -/

/-- A rejected word aborts with no report, or takes its fault (R118, R119). -/
theorem rejectDecoded_next {d : Decoded} {r : Reject} {s t : State} (h : rejectDecoded d r s = .next t) :
    ReportsExitAtEnd s t ∧ t.exitCode = s.exitCode := by
  cases r with
  | unregistered tag =>
    cases h
    exact ⟨reportsExitAtEnd_of_not_halted (es := []) (by simp) (by simp) noExitReport_nil, rfl⟩
  | operandCount m => exact ⟨handleFault_reportsExitAtEnd h, handleFault_exitCode h⟩
  | operandKind m => exact ⟨handleFault_reportsExitAtEnd h, handleFault_exitCode h⟩

theorem State.seed_keeps (s : State) : s.seed.trace = s.trace ∧ s.seed.exitCode = s.exitCode := by
  simp [State.seed]

/-- Run start reports the exit code if the loop never starts (R123). -/
theorem runStart_reportsExitAtEnd (s : State) : ReportsExitAtEnd s (runStart s) := by
  have hseed : s.seed.trace = s.trace ++ [] := by simp [s.seed_keeps]
  unfold runStart
  split
  · exact (endRun_reportsExitAtEnd ..).after hseed noExitReport_nil
  · exact reportsExitAtEnd_of_not_halted (by simp) hseed noExitReport_nil

theorem runStart_exitCode (s : State) : (runStart s).exitCode = s.exitCode := by
  obtain ⟨-, hcode⟩ := s.seed_keeps
  unfold runStart
  split <;> exact hcode

end Sys2Proof.Machine

namespace Sys2Proof.Machine.Claims

/-- Every step reports the exit code at the end of the run and nowhere else, and only a step that runs `ecall` or `scall`
writes it (R122). -/
theorem step_next_reports {s t : State} (h : step s = .next t) :
    ReportsExitAtEnd s t ∧
      (t.exitCode ≠ s.exitCode → ∃ w, Fetches s w ∧ (decode w = .ok .ecall ∨ decode w = .ok .scall)) := by
  have hsteps := step_steps s
  generalize step s = o at h hsteps
  cases hsteps with
  | start hs => cases h; exact ⟨runStart_reportsExitAtEnd s, absurd (runStart_exitCode s)⟩
  | exit hs he => cases h; exact ⟨endRun_reportsExitAtEnd .., absurd rfl⟩
  | noInstruction hs he hf =>
    have hcode : t.exitCode = s.exitCode := handleFault_exitCode (s := s.countCycle) h
    exact ⟨handleFault_reportsExitAtEnd (s := s.countCycle) h, absurd hcode⟩
  | reject hs he w hf r hd =>
    obtain ⟨hreports, hcode⟩ := rejectDecoded_next h
    exact ⟨hreports, absurd hcode⟩
  | execute hs he w hf i hd =>
    refine ⟨exec_reportsExitAtEnd (s := s.countCycle.advancePc) hs h, fun hne => ⟨w, ⟨hs, he, hf⟩, ?_⟩⟩
    have hcalls : callsHandler i = true := by
      by_contra hno
      exact hne (exec_exitCode (s := s.countCycle.advancePc) h (by simpa using hno))
    obtain rfl | rfl := (callsHandler_iff i).mp hcalls
    · exact .inl hd
    · exact .inr hd
  | finished hs => cases h

/-- Settles O13: by the cases of a step, of an instruction and of a fault taken; the exit code is 0 after reset. -/
theorem exitReportedOnceAtTheEnd : Obligations.ExitReportedOnceAtTheEnd := by
  intro s t h
  obtain ⟨⟨es, htrace, hhalted, hopen⟩, hcode⟩ := step_next_reports h
  exact ⟨es, htrace, hhalted, hopen, rfl, hcode⟩

end Sys2Proof.Machine.Claims
end

section
/-! A handler's operand kinds: on any other list its step takes the malformed-instruction fault (R92, R119). -/

namespace Sys2Proof

theorem acceptsKinds_eq_all (f : Form) (ops : List Operand) :
    f.acceptsKinds ops = f.kinds.all (· == ops.map Operand.kind) := by
  unfold Form.acceptsKinds
  cases f.kinds <;> rfl

theorem acceptsCount_eq_all (f : Form) (ops : List Operand) :
    f.acceptsCount ops = f.kinds.all (·.length == ops.length) := by
  unfold Form.acceptsCount
  cases f.kinds <;> rfl

/-- Forms that name these kind sequences accept the lists of one of these kind sequences. -/
theorem any_acceptsKinds {fs : List Form} {kinds : List (List Kind)} (h : fs.map Form.kinds = kinds.map some)
    (ops : List Operand) : fs.any (·.acceptsKinds ops) = true ↔ ops.map Operand.kind ∈ kinds := by
  have hany : fs.any (·.acceptsKinds ops) = (fs.map Form.kinds).any (Option.all (· == ops.map Operand.kind)) := by
    simp [acceptsKinds_eq_all, Function.comp_def]
  simp [hany, h, Function.comp_def]

/-- Forms that name these kind sequences accept the lengths of these kind sequences. -/
theorem any_acceptsCount {fs : List Form} {kinds : List (List Kind)} (h : fs.map Form.kinds = kinds.map some)
    (ops : List Operand) : fs.any (·.acceptsCount ops) = kinds.any (·.length == ops.length) := by
  have hany : fs.any (·.acceptsCount ops) = (fs.map Form.kinds).any (Option.all (·.length == ops.length)) := by
    simp [acceptsCount_eq_all, Function.comp_def]
  simp [hany, h, Function.comp_def]

end Sys2Proof

namespace Sys2Proof.Machine.Claims

theorem entered_instrAddr (s : State) : (entered s).instrAddr = s.pc := by
  simp [State.instrAddr_eq, entered]

/-- A mnemonic whose forms name these kind sequences is the handler of exactly these: what `dispatch` answers on any
other list is a rejection by count, or else by kind (R119). -/
theorem handlerOf_of_forms {m : Mnemonic} {kinds : List (List Kind)} (h : m.forms.map Form.kinds = kinds.map some) :
    HandlerOf m m.tag kinds := by
  refine ⟨rfl, fun s w hf hop hkinds => ?_⟩
  have hname : (unpack w).name = .known m := by simp [unpack, hop, nameOfTag_tag]
  obtain ⟨t, hn, -⟩ | ⟨m', i, hn, hsel, -⟩ | ⟨m', hn, -, hcount, hd⟩ | ⟨m', hn, -, hcount, hd⟩ :=
    dispatch_cases (unpack w)
  all_goals cases hname.symm.trans hn
  · have hany : m.forms.any (·.acceptsKinds (unpack w).ops) = true := by rw [← select_isSome, hsel]; rfl
    exact absurd ((any_acceptsKinds h _).mp hany) hkinds
  all_goals
    rw [any_acceptsCount h] at hcount
    simp [step_of_decode_error hf hd, rejectDecoded, entered_instrAddr, hcount]

/-! ### The two forms of the memory-access mnemonics -/

/-- These two instructions are the two forms of this memory-access mnemonic (R86, R89). -/
structure MemForms (m : Mnemonic) (rri : RegIdx → RegIdx → Word → Instr) (rm : RegIdx → Word → RegIdx → Instr) : Prop where
  forms : m.forms = [.rri, .rm]
  rri_decoded : ∀ r base imm, (rri r base imm).decoded = ⟨.known m, [.reg r, .reg base, .imm imm]⟩
  rm_decoded : ∀ r base imm, (rm r imm base).decoded = ⟨.known m, [.reg r, .mem imm base]⟩

theorem MemForms.handlerOf {m : Mnemonic} {rri : RegIdx → RegIdx → Word → Instr} {rm : RegIdx → Word → RegIdx → Instr}
    (h : MemForms m rri rm) : HandlerOf m m.tag memKinds :=
  handlerOf_of_forms (by rw [h.forms]; rfl)

/-- Raising a fault names the instruction and its own address (R257). -/
theorem raise_eq (i : Instr) (k : FaultKind) (msg : FaultMessage) (s : State) :
    raise i k msg s = handleFault (s.pc - s.platform.iunit) (some i.decoded) k msg s := by
  rw [raise, State.instrAddr_eq]

end Sys2Proof.Machine.Claims
end

section
/-! Loads (R141 to R145): one lemma for a granted read, one for a refused read, and the rule of both operand forms. -/

namespace Sys2Proof.Machine.Claims

/-- A register write changes that register alone (R22). -/
theorem setReg_writesOnly (s : State) (rd : RegIdx) (v : Word) : WritesOnly rd v s (s.setReg rd v) :=
  ⟨State.setReg_reg_self s rd v, fun _ hr => State.setReg_reg_ne v hr, by simp, by simp, by simp [SameRest]⟩

theorem load_of_granted {i : Instr} {n : Nat} {extend : BitVec (8 * n) → Word} {rd base : RegIdx} {imm : Word} {s : State}
    {v : BitVec (8 * n)} (h : s.memRead (s.effectiveAddress base imm) n = some v) :
    ∃ t, load i n extend rd base imm s = .next t ∧ WritesOnly rd (extend v) s t :=
  ⟨_, by simp only [load, h], setReg_writesOnly s rd (extend v)⟩

theorem load_of_refused {i : Instr} {n : Nat} {extend : BitVec (8 * n) → Word} {rd base : RegIdx} {imm : Word} {s : State}
    (h : s.memRead (s.effectiveAddress base imm) n = none) :
    load i n extend rd base imm s = handleFault (s.pc - s.platform.iunit) (some i.decoded) .memoryFault
      (.badAddress (s.effectiveAddress base imm)) s := by
  simp only [load, h, raise_eq]

/-- A mnemonic whose two forms both run `load` follows the rule of a load. -/
theorem loadRule_of_exec {m : Mnemonic} {n : Nat} {extend : BitVec (8 * n) → Word} {rri : RegIdx → RegIdx → Word → Instr}
    {rm : RegIdx → Word → RegIdx → Instr} (hforms : MemForms m rri rm)
    (hrri : ∀ rd base imm s, exec (rri rd base imm) s = load (rri rd base imm) n extend rd base imm s)
    (hrm : ∀ rd base imm s, exec (rm rd imm base) s = load (rm rd imm base) n extend rd base imm s) :
    LoadRule m m.tag n extend rri rm := by
  refine ⟨hforms.handlerOf, fun s rd rs1 imm => ⟨fun v hv => ?_, fun hnone => ?_⟩⟩ <;> rw [hrri, hrm]
  · exact ⟨load_of_granted hv, load_of_granted hv⟩
  · rw [← hforms.rri_decoded, ← hforms.rm_decoded]
    exact ⟨load_of_refused hnone, load_of_refused hnone⟩

/-- Settles O31: both mnemonics run `load` with the sign extension, which is the word of the signed value. -/
theorem signedLoadsSignExtend : Obligations.SignedLoadsSignExtend :=
  ⟨loadRule_of_exec ⟨rfl, fun _ _ _ => rfl, fun _ _ _ => rfl⟩ (fun _ _ _ _ => rfl) (fun _ _ _ _ => rfl),
    loadRule_of_exec ⟨rfl, fun _ _ _ => rfl, fun _ _ _ => rfl⟩ (fun _ _ _ _ => rfl) (fun _ _ _ _ => rfl)⟩

/-- Settles O32: both mnemonics run `load` with the zero extension, which is the word of the unsigned value. -/
theorem unsignedLoadsZeroExtend : Obligations.UnsignedLoadsZeroExtend := by
  unfold Obligations.UnsignedLoadsZeroExtend
  simp only [BitVec.ofNat_toNat]
  exact ⟨loadRule_of_exec ⟨rfl, fun _ _ _ => rfl, fun _ _ _ => rfl⟩ (fun _ _ _ _ => rfl) (fun _ _ _ _ => rfl),
    loadRule_of_exec ⟨rfl, fun _ _ _ => rfl, fun _ _ _ => rfl⟩ (fun _ _ _ _ => rfl) (fun _ _ _ _ => rfl)⟩

end Sys2Proof.Machine.Claims
end

section
/-! Stores (R146 to R148): what an admitted write leaves in D-space, and the rule of both operand forms. -/

namespace Sys2Proof.Machine

/-- Truncating to `n` bytes keeps each of the `n` low bytes (R146). -/
theorem extractLsb'_setWidth_byte (v : Word) {j n : Nat} (h : j < n) :
    (v.setWidth (8 * n)).extractLsb' (8 * j) 8 = v.extractLsb' (8 * j) 8 := by
  apply BitVec.eq_of_getLsbD_eq
  intro b hb
  have : 8 * j + b < 8 * n := by omega
  simp [hb, this]

/-- An admitted write transaction is done (R53). -/
theorem State.exists_memWrite {s : State} {a : Word} {n : Nat} (h : s.admits .write a n = true) (v : BitVec (8 * n)) :
    ∃ t, s.memWrite a n v = some t :=
  ⟨_, if_pos h⟩

/-- A write transaction that is not admitted is refused (R59). -/
theorem State.memWrite_eq_none {s : State} {a : Word} {n : Nat} (h : s.admits .write a n = false) (v : BitVec (8 * n)) :
    s.memWrite a n v = none := by
  simp [State.memWrite, h]

/-- After a write transaction each of its bytes reads as the byte of the value that the byte order puts there (R54). -/
theorem State.memWrite_byteAt {s t : State} {a : Word} {n : Nat} {v : BitVec (8 * n)} (h : s.memWrite a n v = some t)
    (hn : n ≤ 4) (hw : Memory.wf s.dmem = true) {k : Nat} (hk : k < n) :
    t.byteAt (byteAddr a k) =
      v.extractLsb' (8 * (match s.platform.endian with | .little => k | .big => n - 1 - k)) 8 := by
  obtain ⟨-, rfl⟩ := State.memWrite_some h
  have hlen := inOrder_length s.platform.endian n v
  rw [State.byteAt, Memory.lookup_storeBytes (by omega) hw k (by omega)]
  exact inOrder_get _ _ _ _ hk

/-- A write transaction leaves every byte outside it alone (R53). -/
theorem State.memWrite_byteAt_ne {s t : State} {a x : Word} {n : Nat} {v : BitVec (8 * n)} (h : s.memWrite a n v = some t)
    (hx : ∀ k < n, x ≠ byteAddr a k) : t.byteAt x = s.byteAt x := by
  obtain ⟨-, rfl⟩ := State.memWrite_some h
  exact Memory.lookup_storeBytes_ne (by simpa [inOrder_length] using hx)

end Sys2Proof.Machine

namespace Sys2Proof.Machine.Claims

/-- Writing the truncated source stores its low bytes and changes nothing else. -/
theorem memWrite_stored {s t : State} {a : Word} {n : Nat} {src : RegIdx}
    (h : s.memWrite a n ((s.reg src).setWidth (8 * n)) = some t) (hn : n ≤ 4) (hw : Memory.wf s.dmem = true) :
    Stored n src a s t := by
  refine ⟨fun k hk => ?_, fun x hx => State.memWrite_byteAt_ne h hx, ?_⟩
  · rw [State.memWrite_byteAt h hn hw hk]
    cases s.platform.endian with
    | little => exact extractLsb'_setWidth_byte _ hk
    | big => exact extractLsb'_setWidth_byte _ (show n - 1 - k < n by omega)
  · obtain ⟨-, rfl⟩ := State.memWrite_some h
    exact ⟨fun _ => rfl, rfl, by simp [SameRest]⟩

theorem store_of_admitted {i : Instr} {n : Nat} {src base : RegIdx} {imm : Word} {s : State} (hn : n ≤ 4)
    (hw : Memory.wf s.dmem = true) (h : s.admits .write (s.effectiveAddress base imm) n = true) :
    ∃ t, store i n src base imm s = .next t ∧ Stored n src (s.effectiveAddress base imm) s t := by
  obtain ⟨t, ht⟩ := State.exists_memWrite h ((s.reg src).setWidth (8 * n))
  exact ⟨t, by simp only [store, ht], memWrite_stored ht hn hw⟩

theorem store_of_refused {i : Instr} {n : Nat} {src base : RegIdx} {imm : Word} {s : State}
    (h : s.admits .write (s.effectiveAddress base imm) n = false) :
    store i n src base imm s = handleFault (s.pc - s.platform.iunit) (some i.decoded) .memoryFault
      (.badAddress (s.effectiveAddress base imm)) s := by
  simp only [store, State.memWrite_eq_none h, raise_eq]

/-- A mnemonic whose two forms both run `store` follows the rule of a store. -/
theorem storeRule_of_exec {m : Mnemonic} {n : Nat} {rri : RegIdx → RegIdx → Word → Instr}
    {rm : RegIdx → Word → RegIdx → Instr} (hforms : MemForms m rri rm) (hn : n ≤ 4)
    (hrri : ∀ src base imm s, exec (rri src base imm) s = store (rri src base imm) n src base imm s)
    (hrm : ∀ src base imm s, exec (rm src imm base) s = store (rm src imm base) n src base imm s) :
    StoreRule m m.tag n rri rm := by
  refine ⟨hforms.handlerOf, fun s rs2 rs1 imm hw => ⟨fun hadm => ?_, fun href => ?_⟩⟩ <;> rw [hrri, hrm]
  · exact ⟨store_of_admitted hn hw hadm, store_of_admitted hn hw hadm⟩
  · rw [← hforms.rri_decoded, ← hforms.rm_decoded]
    exact ⟨store_of_refused href, store_of_refused href⟩

/-- Settles O34: the three mnemonics run `store`, one, two and four bytes wide. -/
theorem storesTruncateAndWriteTheirBytes : Obligations.StoresTruncateAndWriteTheirBytes :=
  ⟨storeRule_of_exec ⟨rfl, fun _ _ _ => rfl, fun _ _ _ => rfl⟩ (by omega) (fun _ _ _ _ => rfl) (fun _ _ _ _ => rfl),
    storeRule_of_exec ⟨rfl, fun _ _ _ => rfl, fun _ _ _ => rfl⟩ (by omega) (fun _ _ _ _ => rfl) (fun _ _ _ _ => rfl),
    storeRule_of_exec ⟨rfl, fun _ _ _ => rfl, fun _ _ _ => rfl⟩ (by omega) (fun _ _ _ _ => rfl) (fun _ _ _ _ => rfl)⟩

end Sys2Proof.Machine.Claims
end

section
/-! Results written to one register (R175), and the shifts (R160 to R167). -/

namespace Sys2Proof.Machine

/-! ### The shifter at distance 0 (R167) -/

theorem shiftLeft_zero (a : Word) : shiftLeft a 0 = a := by
  apply BitVec.eq_of_toNat_eq
  rw [shiftLeft_toNat, pow_zero, Nat.mul_one, Nat.mod_eq_of_lt a.isLt]

theorem shiftRightLogical_zero (a : Word) : shiftRightLogical a 0 = a := by
  apply BitVec.eq_of_toNat_eq
  rw [shiftRightLogical_toNat, pow_zero, Nat.div_one]

theorem shiftRightArith_zero (a : Word) : shiftRightArith a 0 = a := by
  apply BitVec.eq_of_toInt_eq
  rw [shiftRightArith_toInt, pow_zero, Int.fdiv_one]

/-! ### What each shift writes: the distance is modulo 32 (R160) -/

theorem exec_sll (rd rs1 rs2 : RegIdx) (s : State) :
    exec (.sll rd rs1 rs2) s = writeResult rd (shiftLeft (s.reg rs1) ((s.reg rs2).toNat % 32)) s := by
  rw [← shiftDistance_eq]; rfl

theorem exec_srl (rd rs1 rs2 : RegIdx) (s : State) :
    exec (.srl rd rs1 rs2) s = writeResult rd (shiftRightLogical (s.reg rs1) ((s.reg rs2).toNat % 32)) s := by
  rw [← shiftDistance_eq]; rfl

theorem exec_sra (rd rs1 rs2 : RegIdx) (s : State) :
    exec (.sra rd rs1 rs2) s = writeResult rd (shiftRightArith (s.reg rs1) ((s.reg rs2).toNat % 32)) s := by
  rw [← shiftDistance_eq]; rfl

theorem exec_slli (rd rs1 : RegIdx) (imm : Word) (s : State) :
    exec (.slli rd rs1 imm) s = writeResult rd (shiftLeft (s.reg rs1) (imm.toNat % 32)) s := by
  rw [← shiftDistance_eq]; rfl

theorem exec_srli (rd rs1 : RegIdx) (imm : Word) (s : State) :
    exec (.srli rd rs1 imm) s = writeResult rd (shiftRightLogical (s.reg rs1) (imm.toNat % 32)) s := by
  rw [← shiftDistance_eq]; rfl

theorem exec_srai (rd rs1 : RegIdx) (imm : Word) (s : State) :
    exec (.srai rd rs1 imm) s = writeResult rd (shiftRightArith (s.reg rs1) (imm.toNat % 32)) s := by
  rw [← shiftDistance_eq]; rfl

end Sys2Proof.Machine

namespace Sys2Proof.Machine.Claims

/-- An instruction that writes one result completes, and changes that register alone (R175). -/
theorem writesOnly_of_writeResult {o : Host.Outcome State Fault Refusal} {rd : RegIdx} {v : Word} {s : State}
    (h : o = writeResult rd v s) : ∃ t, o = .next t ∧ WritesOnly rd v s t :=
  ⟨s.setReg rd v, h, setReg_writesOnly s rd v⟩

/-- A mnemonic of the three-register form that writes `op` of its sources follows the rule of every relation `op` meets. -/
theorem r3Rule_of_exec {m : Mnemonic} {i : RegIdx → RegIdx → RegIdx → Instr} {f : Word → Word → Word → Prop}
    {op : Word → Word → Word} (hforms : m.forms = [.r3])
    (hexec : ∀ rd rs1 rs2 s, exec (i rd rs1 rs2) s = writeResult rd (op (s.reg rs1) (s.reg rs2)) s)
    (hf : ∀ a b, f a b (op a b)) : R3Rule m m.tag i f := by
  refine ⟨handlerOf_of_forms (by rw [hforms]; rfl), fun s rd rs1 rs2 => ?_⟩
  obtain ⟨t, hnext, hwrites⟩ := writesOnly_of_writeResult (hexec rd rs1 rs2 s)
  exact ⟨t, _, hnext, hwrites, hf _ _⟩

/-- A mnemonic of the immediate form that writes `op` of its sources follows the rule of every relation `op` meets. -/
theorem rriRule_of_exec {m : Mnemonic} {i : RegIdx → RegIdx → Word → Instr} {f : Word → Word → Word → Prop}
    {op : Word → Word → Word} (hforms : m.forms = [.rri])
    (hexec : ∀ rd rs1 imm s, exec (i rd rs1 imm) s = writeResult rd (op (s.reg rs1) imm) s)
    (hf : ∀ a b, f a b (op a b)) : RriRule m m.tag i f := by
  refine ⟨handlerOf_of_forms (by rw [hforms]; rfl), fun s rd rs1 imm => ?_⟩
  obtain ⟨t, hnext, hwrites⟩ := writesOnly_of_writeResult (hexec rd rs1 imm s)
  exact ⟨t, _, hnext, hwrites, hf _ _⟩

/-- Settles O36: both mnemonics write the logical shifter's result, the unsigned quotient. -/
theorem logicalRightShiftsFillWithZeros : Obligations.LogicalRightShiftsFillWithZeros :=
  ⟨r3Rule_of_exec (op := fun a b => shiftRightLogical a (b.toNat % 32)) rfl exec_srl
      fun _ _ => shiftRightLogical_toNat _ _,
    rriRule_of_exec (op := fun a b => shiftRightLogical a (b.toNat % 32)) rfl exec_srli
      fun _ _ => shiftRightLogical_toNat _ _⟩

/-- Settles O37: both mnemonics write the arithmetic shifter's result, the floor of the signed quotient. -/
theorem arithmeticRightShiftsFillWithTheSign : Obligations.ArithmeticRightShiftsFillWithTheSign :=
  ⟨r3Rule_of_exec (op := fun a b => shiftRightArith a (b.toNat % 32)) rfl exec_sra
      fun _ _ => shiftRightArith_toInt _ _,
    rriRule_of_exec (op := fun a b => shiftRightArith a (b.toNat % 32)) rfl exec_srai
      fun _ _ => shiftRightArith_toInt _ _⟩

/-- Settles O38: each shift writes its shifter's result for the distance modulo 32, and 32 is the distance 0. -/
theorem shiftDistanceIsModulo32 : Obligations.ShiftDistanceIsModulo32 := by
  intro s rd rs1 rs2 i
  exact ⟨writesOnly_of_writeResult (exec_sll rd rs1 rs2 s), writesOnly_of_writeResult (exec_srl rd rs1 rs2 s),
    writesOnly_of_writeResult (exec_sra rd rs1 rs2 s), writesOnly_of_writeResult (exec_slli rd rs1 i s),
    writesOnly_of_writeResult (exec_srli rd rs1 i s), writesOnly_of_writeResult (exec_srai rd rs1 i s),
    shiftLeft_zero _, shiftRightLogical_zero _, shiftRightArith_zero _⟩

end Sys2Proof.Machine.Claims
end

section
/-! Addition (R176, R181), and the seven mnemonics that only raise their fault (R184 to R191). -/

namespace Sys2Proof.Machine

/-- The word of the sum is the sum modulo 2^32, with the signed readings alike (R176). -/
theorem word_add_wraps (a b : Word) :
    (word (unsigned a + unsigned b)).toNat = (a.toNat + b.toNat) % 2 ^ 32 ∧
      word (unsigned a + unsigned b) = BitVec.ofInt 32 (a.toInt + b.toInt) := by
  rw [word_add, BitVec.ofInt_add, BitVec.ofInt_toInt, BitVec.ofInt_toInt]
  exact ⟨BitVec.toNat_add a b, rfl⟩

/-- What a register reads as rests on the register file and the parameters alone (R22). -/
theorem State.reg_congr {s t : State} (hregs : t.regs = s.regs) (hplatform : t.platform = s.platform) (r : RegIdx) :
    t.reg r = s.reg r := by
  simp [State.reg, State.isZeroReg, hregs, hplatform]

theorem State.byteAt_congr {s t : State} (hdmem : t.dmem = s.dmem) (a : Word) : t.byteAt a = s.byteAt a := by
  rw [State.byteAt, hdmem, State.byteAt]

end Sys2Proof.Machine

namespace Sys2Proof.Machine.Claims

theorem Returns.not_blocked {s : State} (h : Returns s) : s.blocked = false := by
  rw [State.blocked, h]; rfl

/-- A fault is taken, to a next state, where every collaborator returns (R259). -/
theorem Returns.exists_handleFault {s : State} (h : Returns s) (a : Word) (d : Option Decoded) (k : FaultKind)
    (m : FaultMessage) : ∃ t, handleFault a d k m s = .next t := by
  obtain ⟨-, hnext⟩ | ⟨-, hblocked, -⟩ | ⟨-, -, hnext⟩ := handleFault_cases a d k m s
  · exact ⟨_, hnext⟩
  · rw [h.not_blocked] at hblocked; cases hblocked
  · exact ⟨_, hnext⟩

/-- A mnemonic that raises its fault on every operand list follows the rule of the seven: what that fault leaves is what
any fault taken does (R184, R259). -/
theorem unimplemented_of_exec {m : Mnemonic} {i : List Operand → Instr}
    (hdecoded : ∀ ops, (i ops).decoded = ⟨.known m, ops⟩)
    (hexec : ∀ ops s, exec (i ops) s = raise (i ops) .unimplementedInstruction (.unimplemented m) s) :
    Claims.Unimplemented m m.tag i := by
  refine ⟨rfl, fun s ops hreturns => ?_⟩
  rw [hexec, raise_eq, hdecoded]
  obtain ⟨t, hnext⟩ := hreturns.exists_handleFault (s.pc - s.platform.iunit) (some ⟨.known m, ops⟩)
    .unimplementedInstruction (.unimplemented m)
  obtain ⟨hstatus, htrace, hexit, hcode, hpc, hcycle, hcfg, himem, hloaded, hplatform, hsame⟩ := handleFault_next hnext
  refine ⟨t, hnext, hstatus, htrace, hpc, hcycle, hexit, hcode, hcfg, himem, hloaded, hplatform, fun hinspect => ?_⟩
  obtain ⟨hregs, hdmem⟩ := hsame hinspect
  exact ⟨State.reg_congr hregs hplatform, State.byteAt_congr hdmem⟩

/-- Settles O39: both mnemonics write the word of the sum. -/
theorem additionWraps : Obligations.AdditionWraps :=
  ⟨r3Rule_of_exec (op := fun a b => word (unsigned a + unsigned b)) rfl (fun _ _ _ _ => rfl) word_add_wraps,
    rriRule_of_exec (op := fun a b => word (unsigned a + unsigned b)) rfl (fun _ _ _ _ => rfl) word_add_wraps⟩

/-- Settles O43: each of the seven raises its own fault, whatever its operands. -/
theorem theSevenRaiseUnimplemented : Obligations.TheSevenRaiseUnimplemented := by
  refine ⟨?_, ?_, ?_, ?_, ?_, ?_, ?_⟩
  all_goals exact unimplemented_of_exec (fun _ => rfl) fun _ _ => rfl

end Sys2Proof.Machine.Claims
end

section
/-! Branches (R205 to R211): the jump that a taken branch makes, the negated conditions, and the rule of every branch. -/

namespace Sys2Proof.Machine

/-! ### The negated conditions (R207, R209, R211) -/

theorem not_condEq_iff (a b : Word) : (!condEq a b) = true ↔ a ≠ b := by
  rw [Bool.not_eq_true', ← Bool.not_eq_true, condEq_iff]

theorem not_condLt_iff (a b : Word) : (!condLt a b) = true ↔ b.toInt ≤ a.toInt := by
  rw [Bool.not_eq_true', ← Bool.not_eq_true, condLt_iff, not_lt]

theorem not_condLtu_iff (a b : Word) : (!condLtu a b) = true ↔ b.toNat ≤ a.toNat := by
  rw [Bool.not_eq_true', ← Bool.not_eq_true, condLtu_iff, not_lt]

end Sys2Proof.Machine

namespace Sys2Proof.Machine.Claims

/-- A write of the pc changes the pc alone. -/
theorem setPc_jumpsTo (s : State) (p : Word) : JumpsTo p s (s.setPc p) :=
  ⟨State.setPc_pc s p, State.setPc_reg s p, State.setPc_byteAt s p, by simp [SameRest]⟩

/-- A state that stays as it is has its pc where it was. -/
theorem jumpsTo_pc_self (s : State) : JumpsTo s.pc s s :=
  ⟨rfl, fun _ => rfl, fun _ => rfl, by simp [SameRest]⟩

/-- The common shape of the branches goes to the target where its condition holds, and changes nothing where not (R205). -/
theorem branchIf_jumpsTo (c : Bool) (target : Word) (s : State) :
    ∃ t, branchIf c target s = .next t ∧ JumpsTo (if c then target else s.pc) s t := by
  cases c with
  | true => exact ⟨s.setPc target, rfl, setPc_jumpsTo s target⟩
  | false => exact ⟨s, rfl, jumpsTo_pc_self s⟩

/-- A mnemonic of the immediate form that branches on `c` follows the rule of the condition that `c` decides. -/
theorem branchRule_of_exec {m : Mnemonic} {i : RegIdx → RegIdx → Word → Instr} {c : Word → Word → Bool}
    {cond : Word → Word → Prop} (hforms : m.forms = [.rri])
    (hexec : ∀ rs1 rs2 target s, exec (i rs1 rs2 target) s = branchIf (c (s.reg rs1) (s.reg rs2)) target s)
    (hcond : ∀ a b, c a b = true ↔ cond a b) : BranchRule m m.tag i cond := by
  refine ⟨handlerOf_of_forms (by rw [hforms]; rfl), fun s rs1 rs2 target => ?_⟩
  obtain ⟨t, hnext, hjumps⟩ := branchIf_jumpsTo (c (s.reg rs1) (s.reg rs2)) target s
  refine ⟨t, (hexec rs1 rs2 target s).trans hnext, fun htaken => ?_, fun hnot => ?_⟩
  · rwa [if_pos ((hcond _ _).mpr htaken)] at hjumps
  · rwa [if_neg (mt (hcond _ _).mp hnot)] at hjumps

/-- Settles O44: both mnemonics branch on the equality of the words, `bne` on its negation. -/
theorem equalityBranchesGoToTheTarget : Obligations.EqualityBranchesGoToTheTarget :=
  ⟨branchRule_of_exec rfl (fun _ _ _ _ => rfl) condEq_iff,
    branchRule_of_exec (c := fun a b => !condEq a b) rfl (fun _ _ _ _ => rfl) not_condEq_iff⟩

/-- Settles O45: both mnemonics branch on the signed order, `bge` on its negation. -/
theorem signedBranchesGoToTheTarget : Obligations.SignedBranchesGoToTheTarget :=
  ⟨branchRule_of_exec rfl (fun _ _ _ _ => rfl) condLt_iff,
    branchRule_of_exec (c := fun a b => !condLt a b) rfl (fun _ _ _ _ => rfl) not_condLt_iff⟩

/-- Settles O46: both mnemonics branch on the unsigned order, `bgeu` on its negation. -/
theorem unsignedBranchesGoToTheTarget : Obligations.UnsignedBranchesGoToTheTarget :=
  ⟨branchRule_of_exec rfl (fun _ _ _ _ => rfl) condLtu_iff,
    branchRule_of_exec (c := fun a b => !condLtu a b) rfl (fun _ _ _ _ => rfl) not_condLtu_iff⟩

end Sys2Proof.Machine.Claims
end

section
/-! Jumps (R220 to R223): what link-and-jump changes, and that a `ret` goes back to what it linked. -/

namespace Sys2Proof.Machine.Claims

/-- `ret` goes to what the return-address register reads, and changes the pc alone (R223). -/
theorem exec_ret_jumpsTo (s : State) : ∃ t, exec .ret s = .next t ∧ JumpsTo (s.reg s.platform.regRa) s t :=
  ⟨_, rfl, setPc_jumpsTo s _⟩

/-- A link and jump changes the link register, as its write does, and then the pc, as a jump does (R221, R222). -/
theorem linkAndJump_links (rd : RegIdx) (target : Word) (s : State) :
    ∃ t, linkAndJump rd target s = .next t ∧ Links rd target s t := by
  obtain ⟨hlink, hothers, -, hbytes, -⟩ := setReg_writesOnly s rd s.pc
  exact ⟨(s.setReg rd s.pc).setPc target, rfl, rfl, hlink, hothers, hbytes, by simp [SameRest]⟩

theorem SameRest.platform_eq {s t : State} (h : SameRest s t) : t.platform = s.platform := by
  obtain ⟨-, -, -, -, -, -, -, -, hplatform, -⟩ := h
  exact hplatform

/-- After a link in the return-address register a `ret` restores the linked pc, unless that register discards writes. -/
theorem Links.exec_ret {target : Word} {s t : State} (h : Links s.platform.regRa target s t)
    (hra : ¬ (s.platform.x0Hardwired = true ∧ s.platform.regRa = 0)) : ∃ u, exec .ret t = .next u ∧ u.pc = s.pc := by
  obtain ⟨-, hlink, -, -, hrest⟩ := h
  have hlinked : t.reg t.platform.regRa = s.pc := by
    rw [hrest.platform_eq, hlink, if_neg (by simpa using hra)]
  obtain ⟨u, hnext, hpc, -⟩ := exec_ret_jumpsTo t
  exact ⟨u, hnext, hpc.trans hlinked⟩

/-- Settles O47: both mnemonics write the pc alone, `ret` from the return-address register. -/
theorem jumpAndReturnMoveOnlyThePc : Obligations.JumpAndReturnMoveOnlyThePc :=
  ⟨handlerOf_of_forms rfl, handlerOf_of_forms rfl, fun s target =>
    ⟨⟨_, rfl, setPc_jumpsTo s target⟩, exec_ret_jumpsTo s⟩⟩

/-- Settles O48: both forms link and jump, and what the form with no register links is what `ret` reads. -/
theorem jalLinksTheAdvancedPc : Obligations.JalLinksTheAdvancedPc := by
  refine ⟨handlerOf_of_forms rfl, fun s rd target => ⟨?_, linkAndJump_links rd target s⟩⟩
  obtain ⟨t, hnext, hlinks⟩ := linkAndJump_links s.platform.regRa target s
  exact ⟨t, hnext, hlinks, hlinks.exec_ret⟩

end Sys2Proof.Machine.Claims
end

section
/-! What a decoded instruction is: its mnemonic is the one the word's tag names (R84, R86). -/

namespace Sys2Proof

section
variable {m : Mnemonic} {ops : List Operand} {i : Instr}

/-! If a form makes only instructions of one mnemonic, what it makes of an operand list has that mnemonic. -/

theorem formR3_mnemonic {f : RegIdx → RegIdx → RegIdx → Instr} (h : formR3 f ops = some i)
    (hf : ∀ a b c, (f a b c).mnemonic = m) : i.mnemonic = m := by
  unfold formR3 at h
  split at h <;> cases h
  exact hf ..

theorem formRri_mnemonic {f : RegIdx → RegIdx → Word → Instr} (h : formRri f ops = some i)
    (hf : ∀ a b v, (f a b v).mnemonic = m) : i.mnemonic = m := by
  unfold formRri at h
  split at h <;> cases h
  exact hf ..

theorem formMem_mnemonic {f : RegIdx → RegIdx → Word → Instr} {g : RegIdx → Word → RegIdx → Instr}
    (h : formMem f g ops = some i) (hf : ∀ a b v, (f a b v).mnemonic = m) (hg : ∀ a v b, (g a v b).mnemonic = m) :
    i.mnemonic = m := by
  unfold formMem at h
  split at h <;> cases h
  · exact hf ..
  · exact hg ..

theorem formI1_mnemonic {f : Word → Instr} (h : formI1 f ops = some i) (hf : ∀ v, (f v).mnemonic = m) :
    i.mnemonic = m := by
  unfold formI1 at h
  split at h <;> cases h
  exact hf _

theorem formRi_mnemonic {f : RegIdx → Word → Instr} (h : formRi f ops = some i) (hf : ∀ a v, (f a v).mnemonic = m) :
    i.mnemonic = m := by
  unfold formRi at h
  split at h <;> cases h
  exact hf ..

theorem formJal_mnemonic {f : Word → Instr} {g : RegIdx → Word → Instr} (h : formJal f g ops = some i)
    (hf : ∀ v, (f v).mnemonic = m) (hg : ∀ a v, (g a v).mnemonic = m) : i.mnemonic = m := by
  unfold formJal at h
  split at h <;> cases h
  · exact hf _
  · exact hg ..

theorem formN_mnemonic {f : Instr} (h : formN f ops = some i) (hf : f.mnemonic = m) : i.mnemonic = m := by
  unfold formN at h
  split at h <;> cases h
  exact hf

end

/-- Selection keeps the mnemonic (R86). -/
theorem mnemonic_of_select {m : Mnemonic} {ops : List Operand} {i : Instr} (h : select m ops = some i) :
    i.mnemonic = m := by
  cases m
  case lb | lh | lw | lbu | lhu | sb | sh | sw =>
    exact formMem_mnemonic h (fun _ _ _ => rfl) (fun _ _ _ => rfl)
  case sll | srl | sra | add | sub | and | or | xor | slt | sltu =>
    exact formR3_mnemonic h fun _ _ _ => rfl
  case slli | srli | srai | addi | beq | bne | blt | bge | bltu | bgeu =>
    exact formRri_mnemonic h fun _ _ _ => rfl
  case andi | ori | xori | slti | sltiu | lui | auipc => cases h; rfl
  case j => exact formI1_mnemonic h fun _ => rfl
  case jal => exact formJal_mnemonic h (fun _ => rfl) (fun _ _ => rfl)
  case jalr => exact formRi_mnemonic h fun _ _ => rfl
  case ret | ecall | scall | ebreak | sbreak | nop => exact formN_mnemonic h rfl

/-- A decoded instruction has the mnemonic the word names (R84). -/
theorem unpack_name_of_decode {w : Diw} {i : Instr} (h : decode w = .ok i) : (unpack w).name = .known i.mnemonic := by
  obtain ⟨t, -, hd⟩ | ⟨m, j, hn, hsel, hd⟩ | ⟨m, -, -, -, hd⟩ | ⟨m, -, -, -, hd⟩ := dispatch_cases (unpack w)
  all_goals cases h.symm.trans hd
  rw [hn, mnemonic_of_select hsel]

/-- The seven select an instruction from every operand list (R93). -/
theorem exists_select_of_isUnimplemented {m : Mnemonic} (hm : m.isUnimplemented = true) (ops : List Operand) :
    ∃ i, select m ops = some i := by
  cases m
  case andi | ori | xori | slti | sltiu | lui | auipc => exact ⟨_, rfl⟩
  all_goals cases hm

/-- A word that names one of the seven decodes to an instruction, whatever its operands (R93). -/
theorem exists_decode_of_isUnimplemented {w : Diw} {m : Mnemonic} (hn : (unpack w).name = .known m)
    (hm : m.isUnimplemented = true) : ∃ i, decode w = .ok i ∧ i.mnemonic = m := by
  obtain ⟨i, hsel⟩ := exists_select_of_isUnimplemented hm (unpack w).ops
  refine ⟨i, ?_, mnemonic_of_select hsel⟩
  rw [decode, show unpack w = ⟨.known m, (unpack w).ops⟩ by rw [← hn]]
  exact dispatch_of_select hsel

/-- The seven, by name (R93). -/
theorem mem_seven_iff (n : MnemName) :
    n ∈ [.known .lui, .known .auipc, .known .xori, .known .ori, .known .andi, .known .slti, .known .sltiu] ↔
      ∃ m, n = MnemName.known m ∧ m.isUnimplemented = true := by
  cases n with
  | unregistered t => simp
  | known m => cases m <;> simp [Mnemonic.isUnimplemented]

end Sys2Proof
end

section
/-! Which faults a step can halt on, and where each comes from (R250 to R254). -/

namespace Sys2Proof.Machine

/-- The faults on which the handler of `i`, entered in `s`, can end the run. -/
inductive Raises (i : Instr) (s : State) : FaultKind → Prop where
  | memory : Raises i s .memoryFault
  | unimplemented (hi : i.mnemonic.isUnimplemented = true) : Raises i s .unimplementedInstruction
  | syscall (hi : callsHandler i = true) (hr : (syscallReply s.syscallNumber s).failure ≠ none) : Raises i s .syscallFault

/-- A fault taken ends the run on its own kind (R259). -/
theorem eq_of_handleFault_halted {a : Word} {d : Option Decoded} {k k' : FaultKind} {m : FaultMessage} {s t : State}
    (h : handleFault a d k' m s = .next t) (hk : t.status = .halted (.fault k)) : k = k' := by
  obtain ⟨hstatus, -⟩ := handleFault_next h
  rw [hk] at hstatus
  cases hstatus
  rfl

theorem GoesOn.not_halted {s t : State} {r : HaltReason} (h : GoesOn s t) (hs : s.status = .running) :
    t.status ≠ .halted r := by
  obtain ⟨hstatus, -⟩ := h
  simp [hstatus, hs]

/-- The syscall hand-off ends the run only where the handler raises, and then on a syscall fault (R235, R254). -/
theorem sysHandle_raises {i : Instr} {s t : State} {k : FaultKind} (hi : callsHandler i = true) (hs : s.status = .running)
    (h : sysHandle i s = .next t) (hk : t.status = .halted (.fault k)) : Raises i s k := by
  obtain ⟨-, hstop⟩ | ⟨-, -, hgo⟩ | ⟨text, -, hfail, hraise⟩ := sysHandle_cases i s
  · rw [hstop] at h; cases h
  · rw [hgo, next_inj] at h
    subst h
    simp [State.syscallEffect_keeps, hs] at hk
  · rw [hraise] at h
    obtain rfl := eq_of_handleFault_halted h hk
    exact .syscall hi (by simp [hfail])

/-- All the faults on which the handler of an instruction can end the run. -/
theorem exec_raises {i : Instr} {s t : State} {k : FaultKind} (hs : s.status = .running) (h : exec i s = .next t)
    (hk : t.status = .halted (.fault k)) : Raises i s k := by
  have hdoes := exec_does i s
  generalize exec i s = o at h hdoes
  cases hdoes with
  | result rd v => cases h; simp [hs] at hk
  | jump p => cases h; simp [hs] at hk
  | link rd v p => cases h; simp [hs] at hk
  | nothing => cases h; simp [hs] at hk
  | write u a n v hi hw => cases h; exact absurd hk ((memWrite_goesOn hw).not_halted hs)
  | refusedAccess a => obtain rfl := eq_of_handleFault_halted h hk; exact .memory
  | unimplemented hi => obtain rfl := eq_of_handleFault_halted h hk; exact .unimplemented hi
  | debug hi => exact absurd hk ((debugLaunch_goesOn h).not_halted hs)
  | syscall hi => exact sysHandle_raises hi hs h hk

/-- The handler of one of the seven raises its fault (R184). -/
theorem exec_of_isUnimplemented {i : Instr} (hi : i.mnemonic.isUnimplemented = true) (s : State) :
    exec i s = raise i .unimplementedInstruction (.unimplemented i.mnemonic) s := by
  cases i
  case andi | ori | xori | slti | sltiu | lui | auipc => rfl
  all_goals cases hi

/-- The handler of `ecall` and `scall` is the syscall hand-off (R240, R241). -/
theorem exec_of_callsHandler {i : Instr} (hi : callsHandler i = true) (s : State) : exec i s = sysHandle i s := by
  obtain rfl | rfl := (callsHandler_iff i).mp hi <;> rfl

end Sys2Proof.Machine

namespace Sys2Proof.Machine.Claims

/-- The faults on which a step from `s` can end the run: the fetch's, the rejected operand list's, and those of the
handler it runs. -/
inductive StepRaises (s : State) : FaultKind → Prop where
  | fetch : StepRaises s .memoryFault
  | malformed : StepRaises s .malformedInstruction
  | handler (w : Diw) (i : Instr) {k : FaultKind} (hf : Fetches s w) (hd : decode w = .ok i)
      (hr : Raises i (entered s) k) : StepRaises s k

/-- A rejected word ends the run on a malformed instruction or on no fault (R118, R119). -/
theorem eq_of_rejectDecoded_halted {d : Decoded} {r : Reject} {s t : State} {k : FaultKind}
    (h : rejectDecoded d r s = .next t) (hk : t.status = .halted (.fault k)) : k = .malformedInstruction := by
  cases r with
  | unregistered tag => cases h; cases hk
  | operandCount m => exact eq_of_handleFault_halted h hk
  | operandKind m => exact eq_of_handleFault_halted h hk

theorem runStart_not_faulted (s : State) (k : FaultKind) : (runStart s).status ≠ .halted (.fault k) := by
  unfold runStart
  split <;> simp

/-- All the faults on which a step can end the run. -/
theorem step_raises {s t : State} {k : FaultKind} (h : step s = .next t) (hk : t.status = .halted (.fault k)) :
    StepRaises s k := by
  have hsteps := step_steps s
  generalize step s = o at h hsteps
  cases hsteps with
  | start hs => cases h; exact absurd hk (runStart_not_faulted s k)
  | exit hs he => cases h; simp at hk
  | noInstruction hs he hf => obtain rfl := eq_of_handleFault_halted h hk; exact .fetch
  | reject hs he w hf r hd => obtain rfl := eq_of_rejectDecoded_halted h hk; exact .malformed
  | execute hs he w hf i hd =>
    rw [countCycle_advancePc] at h
    exact .handler w i ⟨hs, he, hf⟩ hd (exec_raises (s := entered s) hs h hk)
  | finished hs => cases h

/-- A step that fetches a word of the table is its handler's on the entered state (R112). -/
theorem step_of_decode_ok {s : State} {w : Diw} {i : Instr} (hf : Fetches s w) (hd : decode w = .ok i) :
    step s = exec i (entered s) := by
  rw [step_of_fetches hf, dispatchWord, hd, ← countCycle_advancePc]

/-- Settles O17: among a step's faults this one is a handler's whose mnemonic is of the seven; and a word that names one
of the seven decodes, whatever its operands, to an instruction that raises it. -/
theorem unimplementedFaultIsTheSevens : Obligations.UnimplementedFaultIsTheSevens := by
  intro s t _ hstep
  constructor
  · intro hk
    cases step_raises hstep hk with
    | handler w i hf hd hr =>
      cases hr with
      | unimplemented hi => exact ⟨w, hf, (mem_seven_iff _).mpr ⟨_, unpack_name_of_decode hd, hi⟩⟩
  · rintro ⟨w, hf, hseven⟩
    obtain ⟨m, hn, hm⟩ := (mem_seven_iff _).mp hseven
    obtain ⟨i, hd, rfl⟩ := exists_decode_of_isUnimplemented hn hm
    rw [step_of_decode_ok hf hd, exec_of_isUnimplemented hm] at hstep
    obtain ⟨hstatus, -⟩ := handleFault_next hstep
    exact hstatus

/-- Where the Syscall Handler raises, the hand-off takes its fault on the state it left (R236, R254). -/
theorem sysHandle_of_failure {s : State} {text : SyscallText} (i : Instr) (hb : s.blocked = false)
    (hfail : (syscallReply s.syscallNumber s).failure = some text) :
    sysHandle i s = handleFault (s.pc - s.platform.iunit) (some i.decoded) .syscallFault (.syscall text)
      ((s.emit (.syscallIssued s.syscallNumber)).syscallEffect (syscallReply s.syscallNumber s)) := by
  obtain ⟨hblocked, -⟩ | ⟨-, hnone, -⟩ | ⟨text', -, hfail', hraise⟩ := sysHandle_cases i s
  · rw [hb] at hblocked; cases hblocked
  · rw [hfail] at hnone; cases hnone
  · cases hfail.symm.trans hfail'
    rw [hraise, raise_eq]
    simp [State.syscallEffect_keeps]

/-- Settles O54: the hand-off relays what the handler raises, and no other step halts on a syscall fault. -/
theorem syscallFaultIsRelayed : Obligations.SyscallFaultIsRelayed := by
  refine ⟨fun s i text hi hb hfail => ?_, fun s t _ hstep hk => ?_⟩
  · rw [exec_of_callsHandler ((callsHandler_iff i).mpr hi), sysHandle_of_failure i hb hfail]
  · cases step_raises hstep hk with
    | handler w i hf hd hr =>
      cases hr with
      | syscall hi hfail =>
        obtain rfl | rfl := (callsHandler_iff i).mp hi
        · exact ⟨w, hf, .inl hd, hfail⟩
        · exact ⟨w, hf, .inr hd, hfail⟩

end Sys2Proof.Machine.Claims
end

section
/-! Packing and unpacking: an operand list that a word can carry comes back as it was, and so does a mnemonic (R84, R85). -/

namespace Sys2Proof

/-! ### Slots (R82, R84) -/

theorem slotOperand_absent (r : RegIdx) (v : Word) : slotOperand (kindCode none) r v = none := rfl

/-- A packed operand reads back from its slot if the `imm` field is its immediate word, where it has one. -/
theorem slotOperand_packed {o : Operand} {v : Word} (h : ∀ x, o.immediate? = some x → x = v) :
    slotOperand (kindCode (some o)) (regField (some o)) v = some o := by
  cases o with
  | reg r => rfl
  | imm x => rw [h x rfl]; rfl
  | mem x b => rw [h x rfl]; rfl

/-- A slot's operand has the shared immediate, if it has one. -/
theorem immediate_of_slotOperand {k : BitVec 2} {r : RegIdx} {v x : Word} {o : Operand}
    (h : slotOperand k r v = some o) (hx : o.immediate? = some x) : x = v := by
  unfold slotOperand at h
  split at h
  · cases h
  · split at h
    · cases h; cases hx
    · split at h
      · cases h; cases hx; rfl
      · cases h; cases hx; rfl

theorem mem_of_mem_upToAbsent {l : List (Option Operand)} {o : Operand} (h : o ∈ upToAbsent l) : some o ∈ l := by
  induction l with
  | nil => cases h
  | cons x l ih =>
    cases x with
    | none => cases h
    | some y =>
      rcases List.mem_cons.mp h with rfl | hmem
      · exact List.mem_cons_self
      · exact List.mem_cons_of_mem _ (ih hmem)

theorem length_upToAbsent_le (l : List (Option Operand)) : (upToAbsent l).length ≤ l.length := by
  induction l with
  | nil => exact Nat.le_refl _
  | cons x l ih =>
    cases x with
    | none => exact Nat.zero_le _
    | some y => exact Nat.succ_le_succ ih

/-- Three slots hold every list of at most three operands. -/
theorem upToAbsent_getElem? {ops : List Operand} (h : ops.length ≤ 3) : upToAbsent [ops[0]?, ops[1]?, ops[2]?] = ops := by
  match ops, h with
  | [], _ => rfl
  | [_], _ => rfl
  | [_, _], _ => rfl
  | [_, _, _], _ => rfl

/-! ### The shared immediate word (R82, R84) -/

theorem mem_immediates {ops : List Operand} {v : Word} : v ∈ immediates ops ↔ ∃ o ∈ ops, o.immediate? = some v :=
  List.mem_filterMap

/-- The operands share an immediate exactly where the `imm` field holds the one of each. -/
theorem sharesImmediate_iff (ops : List Operand) :
    sharesImmediate ops = true ↔ ∀ v ∈ immediates ops, v = immField ops := by
  unfold sharesImmediate immField
  cases immediates ops with
  | nil => simp
  | cons v l => simp

/-- Operands of one word share its immediate. -/
theorem sharesImmediate_of_forall {ops : List Operand} {v : Word} (h : ∀ x ∈ immediates ops, x = v) :
    sharesImmediate ops = true := by
  rw [sharesImmediate_iff]
  intro x hx
  unfold immField
  cases hl : immediates ops with
  | nil => rw [hl] at hx; cases hx
  | cons y l => rw [h x hx, List.headD_cons, h y (by rw [hl]; exact List.mem_cons_self)]

/-- What a word unpacks to can be packed (R84). -/
theorem packable_unpack (w : Diw) : packable (unpack w).ops = true := by
  rw [packable, Bool.and_eq_true]
  refine ⟨decide_eq_true (length_upToAbsent_le _), sharesImmediate_of_forall (v := Diw.imm w) fun x hx => ?_⟩
  obtain ⟨o, ho, hox⟩ := mem_immediates.mp hx
  have hslot := mem_of_mem_upToAbsent ho
  simp only [List.mem_cons, List.not_mem_nil, or_false] at hslot
  obtain h | h | h := hslot
  all_goals exact immediate_of_slotOperand h.symm hox

/-! ### Round trips -/

/-- The slots of a packed list hold its operands. -/
theorem slotOperand_pack {ops : List Operand} (h : sharesImmediate ops = true) (n : Nat) :
    slotOperand (kindCode ops[n]?) (regField ops[n]?) (immField ops) = ops[n]? := by
  cases ho : ops[n]? with
  | none => exact slotOperand_absent _ _
  | some o =>
    exact slotOperand_packed fun x hx =>
      (sharesImmediate_iff ops).mp h x (mem_immediates.mpr ⟨o, List.mem_of_getElem? ho, hx⟩)

/-- A decoded instruction that a word can carry unpacks from its canonical word (R84, R85). -/
theorem unpack_pack {d : Decoded} (hname : nameOfTag d.name.tag = d.name) (hops : packable d.ops = true) :
    unpack (pack d) = d := by
  obtain ⟨hfits, hshares⟩ := Bool.and_eq_true_iff.mp hops
  obtain ⟨name, ops⟩ := d
  simp only [unpack, pack_op, pack_k0, pack_k1, pack_k2, pack_r0, pack_r1, pack_r2, pack_imm, slotOperand_pack hshares,
    upToAbsent_getElem? (of_decide_eq_true hfits), hname]

/-- The tag of a name that a tag stands for stands for that name again (R83, R84). -/
theorem nameOfTag_tag_nameOfTag (t : Byte) : nameOfTag (nameOfTag t).tag = nameOfTag t := by
  by_cases h : ∃ m : Mnemonic, m.tag = t
  · obtain ⟨m, rfl⟩ := h
    rw [nameOfTag_tag]
    exact nameOfTag_tag m
  · have hunregistered : nameOfTag t = .unregistered t := nameOfTag_of_no_tag (not_exists.mp h)
    rw [hunregistered]
    exact hunregistered

/-- A well-formed instruction's operands can be packed: the fixed forms have at most one immediate. -/
theorem packable_operands {i : Instr} (h : i.wellFormed = true) : packable i.operands = true := by
  cases i
  case andi | ori | xori | slti | sltiu | lui | auipc => exact h
  all_goals rfl

/-- An instruction is what its own mnemonic and operands select (R86). -/
theorem select_operands (i : Instr) : select i.mnemonic i.operands = some i := by
  cases i <;> rfl

/-- Settles O2: the canonical word unpacks to the instruction's mnemonic and operands, and they select it. -/
theorem decodeEncodeRoundTrip : Obligations.DecodeEncodeRoundTrip := by
  intro i hi
  have hunpack : unpack (encode i) = i.decoded := unpack_pack (nameOfTag_tag i.mnemonic) (packable_operands hi)
  rw [decode, hunpack]
  exact dispatch_of_select (select_operands i)

/-- Settles O3: what a word unpacks to is a list and a name that a word can carry. -/
theorem canonicalWordMeansTheSame : Obligations.CanonicalWordMeansTheSame :=
  fun w => unpack_pack (nameOfTag_tag_nameOfTag (Diw.op w)) (packable_unpack w)

end Sys2Proof
end

section
/-! Which bits of a word unpacking reads: two words that agree on the bits read from one of them unpack alike (R84, R95). -/

namespace Sys2Proof

theorem kindCode_cases (k : BitVec 2) : k = 0#2 ∨ k = 1#2 ∨ k = 2#2 ∨ k = 3#2 := by
  revert k
  decide

theorem slotOperand_eq_none_iff {k : BitVec 2} {r : RegIdx} {v : Word} : slotOperand k r v = none ↔ k = 0#2 := by
  obtain rfl | rfl | rfl | rfl := kindCode_cases k <;> simp [slotOperand]

/-- The slots after the first absent one do not matter. -/
theorem upToAbsent_cons_congr {x y : Option Operand} {l l' : List (Option Operand)} (hxy : x = y)
    (hl : x ≠ none → upToAbsent l = upToAbsent l') : upToAbsent (x :: l) = upToAbsent (y :: l') := by
  subst hxy
  cases x with
  | none => rfl
  | some o => exact congrArg (o :: ·) (hl (by simp))

end Sys2Proof

namespace Sys2Proof.Machine.Claims

/-! ### Present slots (R84) -/

theorem slotPresent_zero (w : Diw) : slotPresent w 0 = true ↔ Diw.k0 w ≠ 0#2 := by
  simp [slotPresent]

theorem slotPresent_one (w : Diw) : slotPresent w 1 = true ↔ Diw.k0 w ≠ 0#2 ∧ Diw.k1 w ≠ 0#2 := by
  simp [slotPresent]

theorem slotPresent_two (w : Diw) : slotPresent w 2 = true ↔ Diw.k0 w ≠ 0#2 ∧ Diw.k1 w ≠ 0#2 ∧ Diw.k2 w ≠ 0#2 := by
  simp [slotPresent]

/-- A slot's operand rests on its register field and on the immediate only where its kind reads them. -/
theorem slotOperand_eq_of_reads {w : Diw} (n : Nat) {k : BitVec 2} {r r' : RegIdx} {x x' : Word}
    (hs : k ≠ 0#2 → slotPresent w n = true) (hr : readsRegField w n k = true → r = r')
    (hx : readsImm w n k = true → x = x') : slotOperand k r x = slotOperand k r' x' := by
  obtain rfl | rfl | rfl | rfl := kindCode_cases k
  · rfl
  · rw [hr (by simp [readsRegField, hs])]; rfl
  · rw [hx (by simp [readsImm, hs])]; rfl
  · rw [hr (by simp [readsRegField, hs]), hx (by simp [readsImm, hs])]

/-! ### Agreement on the bits read -/

/-- Two words have this field in common if they agree on its bits. -/
theorem extractLsb'_eq_of_bits {w v : Diw} {k n : Nat} (h : ∀ j < n, w.getLsbD (k + j) = v.getLsbD (k + j)) :
    w.extractLsb' k n = v.extractLsb' k n :=
  extract_eq_of_bits _ fun j hj => by simp [hj, h j hj]

/-- These words agree on every bit that unpacking the first reads. -/
def AgreeOnRead (w v : Diw) : Prop := ∀ b < 64, readsBit w b = true → w.getLsbD b = v.getLsbD b

section
variable {w v : Diw} (h : AgreeOnRead w v)
include h

/-- Words that agree on the bits read have a field in common that is read bit by bit. -/
theorem AgreeOnRead.field {k n : Nat} (hkn : k + n ≤ 64) (hreads : ∀ j < n, readsBit w (k + j) = true) :
    w.extractLsb' k n = v.extractLsb' k n :=
  extractLsb'_eq_of_bits fun j hj => h (k + j) (by omega) (hreads j hj)

theorem AgreeOnRead.op_eq : Diw.op w = Diw.op v :=
  h.field (by omega) fun j _ => if_pos (by omega)

theorem AgreeOnRead.k0_eq : Diw.k0 w = Diw.k0 v :=
  h.field (by omega) fun j _ => if_pos (by omega)

theorem AgreeOnRead.k1_eq (hs : slotPresent w 0 = true) : Diw.k1 w = Diw.k1 v :=
  h.field (by omega) fun j hj => by simp (disch := omega) only [readsBit, if_pos, if_neg, hs]

theorem AgreeOnRead.k2_eq (hs : slotPresent w 1 = true) : Diw.k2 w = Diw.k2 v :=
  h.field (by omega) fun j hj => by simp (disch := omega) only [readsBit, if_pos, if_neg, hs]

theorem AgreeOnRead.r0_eq (hs : readsRegField w 0 (Diw.k0 w) = true) : Diw.r0 w = Diw.r0 v :=
  h.field (by omega) fun j hj => by simp (disch := omega) only [readsBit, if_pos, if_neg, hs]

theorem AgreeOnRead.r1_eq (hs : readsRegField w 1 (Diw.k1 w) = true) : Diw.r1 w = Diw.r1 v :=
  h.field (by omega) fun j hj => by simp (disch := omega) only [readsBit, if_pos, if_neg, hs]

theorem AgreeOnRead.r2_eq (hs : readsRegField w 2 (Diw.k2 w) = true) : Diw.r2 w = Diw.r2 v :=
  h.field (by omega) fun j hj => by simp (disch := omega) only [readsBit, if_pos, if_neg, hs]

theorem AgreeOnRead.imm_eq
    (hs : readsImm w 0 (Diw.k0 w) = true ∨ readsImm w 1 (Diw.k1 w) = true ∨ readsImm w 2 (Diw.k2 w) = true) :
    Diw.imm w = Diw.imm v :=
  h.field (by omega) fun j hj => by
    simp (disch := omega) only [readsBit, if_neg, Bool.or_eq_true]
    exact or_assoc.mpr hs

/-- Slot by slot: a present slot's operand is read, and so are the kinds up to the first absent one (R84). -/
theorem AgreeOnRead.unpack_eq : unpack w = unpack v := by
  have hops : (unpack w).ops = (unpack v).ops := by
    refine upToAbsent_cons_congr ?_ fun h0 => upToAbsent_cons_congr ?_ fun h1 => upToAbsent_cons_congr ?_ fun _ => rfl
    · rw [← h.k0_eq]
      exact slotOperand_eq_of_reads 0 (slotPresent_zero w).mpr h.r0_eq fun hi => h.imm_eq (.inl hi)
    · have hk0 := mt slotOperand_eq_none_iff.mpr h0
      rw [← h.k1_eq ((slotPresent_zero w).mpr hk0)]
      exact slotOperand_eq_of_reads 1 (fun hk1 => (slotPresent_one w).mpr ⟨hk0, hk1⟩) h.r1_eq
        fun hi => h.imm_eq (.inr (.inl hi))
    · have hk0 := mt slotOperand_eq_none_iff.mpr h0
      have hk1 := mt slotOperand_eq_none_iff.mpr h1
      rw [← h.k2_eq ((slotPresent_one w).mpr ⟨hk0, hk1⟩)]
      exact slotOperand_eq_of_reads 2 (fun hk2 => (slotPresent_two w).mpr ⟨hk0, hk1, hk2⟩) h.r2_eq
        fun hi => h.imm_eq (.inr (.inr hi))
  have hname : (unpack w).name = (unpack v).name := congrArg nameOfTag h.op_eq
  calc unpack w = ⟨(unpack w).name, (unpack w).ops⟩ := rfl
    _ = ⟨(unpack v).name, (unpack v).ops⟩ := by rw [hname, hops]

end

/-- Settles O4: the two words unpack alike, and dispatch sees a word through what it unpacks to alone. -/
theorem unreadBitsIgnored : Obligations.UnreadBitsIgnored := by
  intro w v h
  have hunpack : unpack w = unpack v := AgreeOnRead.unpack_eq h
  exact ⟨hunpack, fun s => by simp only [dispatchWord, decode, hunpack]⟩

end Sys2Proof.Machine.Claims
end

section
/-! The opcode table is one row per mnemonic and accepted form, and a word matches a row exactly where its tag and its
operand kinds are that row's (R83, R86, R90). -/

namespace Sys2Proof

/-! ### The operand kinds of a word (R82, R84) -/

/-- The kind of a slot; `none`: absent. -/
def slotKind (k : BitVec 2) : Option Kind :=
  if k = 0#2 then none else if k = 1#2 then some .reg else if k = 2#2 then some .imm else some .mem

/-- The kinds before the first absent slot. -/
def kindsOfCodes (k0 k1 k2 : BitVec 2) : List Kind :=
  [slotKind k0, slotKind k1, slotKind k2].takeWhile Option.isSome |>.filterMap id

theorem slotOperand_map_kind (k : BitVec 2) (r : RegIdx) (v : Word) : (slotOperand k r v).map Operand.kind = slotKind k := by
  obtain rfl | rfl | rfl | rfl := kindCode_cases k <;> rfl

theorem map_kind_upToAbsent (l : List (Option Operand)) :
    (upToAbsent l).map Operand.kind = ((l.map (Option.map Operand.kind)).takeWhile Option.isSome).filterMap id := by
  induction l with
  | nil => rfl
  | cons x l ih =>
    cases x with
    | none => rfl
    | some o => simp [upToAbsent, ih]

theorem map_kind_unpack (w : Diw) : (unpack w).ops.map Operand.kind = kindsOfCodes (Diw.k0 w) (Diw.k1 w) (Diw.k2 w) := by
  simp only [unpack, map_kind_upToAbsent, List.map_cons, List.map_nil, slotOperand_map_kind, kindsOfCodes]

/-! ### Rows (R90) -/

/-- The kind codes a form demands, slot by slot; zero in a slot it does not test. -/
def Form.codes : Form → BitVec 6
  | .n | .any => 0b000000#6
  | .r3 => 0b010101#6
  | .rri => 0b010110#6
  | .rm => 0b011100#6
  | .i1 => 0b100000#6
  | .ri => 0b011000#6

/-- The kind codes a form tests: its slots' and that of the slot after them. -/
def Form.codesMask : Form → BitVec 6
  | .any => 0b000000#6
  | .n => 0b110000#6
  | .i1 => 0b111100#6
  | .r3 | .rri | .rm | .ri => 0b111111#6

/-- The row of a mnemonic and a form: it tests the tag and the form's kind codes. -/
def tableRow (m : Mnemonic) (f : Form) : OpRow :=
  ⟨m, f, m.tag ++ f.codes ++ 0#50, 0xFF#8 ++ f.codesMask ++ 0#50⟩

theorem opcodeTable_eq : opcodeTable = registry.flatMap fun m => m.forms.map (tableRow m) := by
  rfl

theorem mem_registry (m : Mnemonic) : m ∈ registry := mem_supportedMnemonics m

theorem mem_opcodeTable {r : OpRow} : r ∈ opcodeTable ↔ ∃ m, ∃ f ∈ m.forms, tableRow m f = r := by
  simp [opcodeTable_eq, mem_registry]

/-- A word is its tag, its kind codes and the rest. -/
theorem diw_eq_append (w : Diw) : w = Diw.op w ++ (Diw.k0 w ++ Diw.k1 w ++ Diw.k2 w) ++ w.extractLsb' 0 50 := by
  apply BitVec.eq_of_getLsbD_eq
  intro j hj
  simp only [BitVec.getLsbD_append, Diw.op, Diw.k0, Diw.k1, Diw.k2, BitVec.getLsbD_extractLsb']
  grind

/-- The codes that pass a form's test are those of the kind sequence it accepts. -/
theorem codes_test_iff (f : Form) (k0 k1 k2 : BitVec 2) :
    (k0 ++ k1 ++ k2) &&& f.codesMask = f.codes ↔ f.kinds.all (· == kindsOfCodes k0 k1 k2) = true := by
  cases f
  all_goals
    revert k0 k1 k2
    decide

theorem append_inj_iff {n k : Nat} {x x' : BitVec n} {y y' : BitVec k} : x ++ y = x' ++ y' ↔ x = x' ∧ y = y' := by
  refine ⟨fun h => ⟨?_, ?_⟩, fun ⟨hx, hy⟩ => by rw [hx, hy]⟩
  · simpa only [BitVec.extractLsb'_append_eq_left] using congrArg (BitVec.extractLsb' k n) h
  · simpa only [BitVec.extractLsb'_append_eq_right] using congrArg (BitVec.extractLsb' 0 k) h

/-- A masked word is a pattern exactly where each masked field is. -/
theorem and_append_eq_iff {n k l : Nat} {x x' x'' : BitVec n} {y y' y'' : BitVec k} {z : BitVec l} :
    (x ++ y ++ z) &&& (x' ++ y' ++ 0#l) = x'' ++ y'' ++ 0#l ↔ x &&& x' = x'' ∧ y &&& y' = y'' := by
  rw [BitVec.and_append, BitVec.and_append, BitVec.and_zero, BitVec.append_left_inj, append_inj_iff]

/-- A word matches a row exactly where it has the row's tag and operand kinds that the row's form accepts (R90). -/
theorem tableRow_matches_iff (m : Mnemonic) (f : Form) (w : Diw) :
    (tableRow m f).matches w = true ↔ Diw.op w = m.tag ∧ f.acceptsKinds (unpack w).ops = true := by
  have htag : Diw.op w &&& 0xFF#8 = Diw.op w := BitVec.and_allOnes
  rw [acceptsKinds_eq_all, map_kind_unpack, ← codes_test_iff, OpRow.matches, beq_iff_eq, ← htag]
  conv_lhs => rw [diw_eq_append w]
  exact and_append_eq_iff

/-! ### Words and rows -/

theorem tag_injective {m n : Mnemonic} (h : m.tag = n.tag) : m = n := by
  have hname : nameOfTag m.tag = nameOfTag n.tag := congrArg nameOfTag h
  rw [nameOfTag_tag, nameOfTag_tag] at hname
  cases hname
  rfl

/-- The operands of a word that decodes to an instruction select it. -/
theorem select_of_decode {w : Diw} {i : Instr} (h : decode w = .ok i) : select i.mnemonic (unpack w).ops = some i := by
  obtain ⟨t, -, hd⟩ | ⟨m, j, -, hsel, hd⟩ | ⟨m, -, -, -, hd⟩ | ⟨m, -, -, -, hd⟩ := dispatch_cases (unpack w)
  all_goals cases h.symm.trans hd
  rwa [mnemonic_of_select hsel]

/-- The instruction that a word's tag and operands select is the one it decodes to. -/
theorem decode_of_select {w : Diw} {m : Mnemonic} {i : Instr} (htag : Diw.op w = m.tag)
    (h : select m (unpack w).ops = some i) : decode w = .ok i := by
  have hunpack : unpack w = ⟨.known m, (unpack w).ops⟩ := by simp only [unpack, htag, nameOfTag_tag]
  rw [decode, hunpack]
  exact dispatch_of_select h

/-- Settles O5: an instruction is selected by its tag and by kinds that one of its mnemonic's forms accepts, and these are
what the row of that form tests. -/
theorem decodesExactlyTheTableRows : Obligations.DecodesExactlyTheTableRows := by
  constructor
  · intro w i hd
    have hforms : i.mnemonic.forms.any (·.acceptsKinds (unpack w).ops) = true := by
      rw [← select_isSome, select_of_decode hd]
      rfl
    obtain ⟨f, hf, hkinds⟩ := List.any_eq_true.mp hforms
    exact ⟨tableRow i.mnemonic f, mem_opcodeTable.mpr ⟨_, f, hf, rfl⟩,
      (tableRow_matches_iff _ _ _).mpr ⟨(tag_of_nameOfTag (unpack_name_of_decode hd)).symm, hkinds⟩, rfl⟩
  · intro w r hr hmatches
    obtain ⟨m, f, hf, rfl⟩ := mem_opcodeTable.mp hr
    obtain ⟨htag, hkinds⟩ := (tableRow_matches_iff _ _ _).mp hmatches
    have hsome : (select m (unpack w).ops).isSome = true := by
      rw [select_isSome]
      exact List.any_eq_true.mpr ⟨f, hf, hkinds⟩
    obtain ⟨i, hsel⟩ := Option.isSome_iff_exists.mp hsome
    exact ⟨i, decode_of_select htag hsel, mnemonic_of_select hsel⟩

/-- A mnemonic has one form, or two of different lengths (R86). -/
theorem forms_cases (m : Mnemonic) : (∃ f, m.forms = [f]) ∨ m.forms = [.rri, .rm] ∨ m.forms = [.i1, .ri] := by
  cases m <;> simp [Mnemonic.forms]

/-- Of a mnemonic's forms no two accept the same operand list (R86). -/
theorem form_unique {m : Mnemonic} {f g : Form} (hf : f ∈ m.forms) (hg : g ∈ m.forms) {ops : List Operand}
    (hfk : f.acceptsKinds ops = true) (hgk : g.acceptsKinds ops = true) : f = g := by
  have hfc := acceptsCount_of_acceptsKinds hfk
  have hgc := acceptsCount_of_acceptsKinds hgk
  rw [acceptsCount_eq_all] at hfc hgc
  obtain ⟨x, hm⟩ | hm | hm := forms_cases m
  · rw [hm, List.mem_singleton] at hf hg
    rw [hf, hg]
  all_goals
    rw [hm, List.mem_pair] at hf hg
    obtain rfl | rfl := hf <;> obtain rfl | rfl := hg <;> simp [Form.kinds] at hfc hgc ⊢ <;> omega

/-- Settles O6: a row that the word matches has its tag, so its mnemonic, and the one form that accepts its operands. -/
theorem noWordMatchesTwoRows : Obligations.NoWordMatchesTwoRows := by
  refine ⟨rfl, fun w r q hr hq hrw hqw => ?_⟩
  obtain ⟨m, f, hf, rfl⟩ := mem_opcodeTable.mp hr
  obtain ⟨n, g, hg, rfl⟩ := mem_opcodeTable.mp hq
  obtain ⟨hmtag, hfk⟩ := (tableRow_matches_iff _ _ _).mp hrw
  obtain ⟨hntag, hgk⟩ := (tableRow_matches_iff _ _ _).mp hqw
  obtain rfl := tag_injective (hmtag.symm.trans hntag)
  rw [form_unique hf hg hfk hgk]

/-! ### The operands of a decoded instruction -/

section
variable {ops : List Operand} {i : Instr}

theorem formR3_some {f : RegIdx → RegIdx → RegIdx → Instr} (h : formR3 f ops = some i) :
    ∃ a b c, ops = [.reg a, .reg b, .reg c] ∧ i = f a b c := by
  unfold formR3 at h
  split at h <;> cases h
  exact ⟨_, _, _, rfl, rfl⟩

theorem formRri_some {f : RegIdx → RegIdx → Word → Instr} (h : formRri f ops = some i) :
    ∃ a b v, ops = [.reg a, .reg b, .imm v] ∧ i = f a b v := by
  unfold formRri at h
  split at h <;> cases h
  exact ⟨_, _, _, rfl, rfl⟩

theorem formMem_some {f : RegIdx → RegIdx → Word → Instr} {g : RegIdx → Word → RegIdx → Instr}
    (h : formMem f g ops = some i) :
    ∃ a b v, (ops = [.reg a, .reg b, .imm v] ∧ i = f a b v) ∨ (ops = [.reg a, .mem v b] ∧ i = g a v b) := by
  unfold formMem at h
  split at h <;> cases h
  · exact ⟨_, _, _, .inl ⟨rfl, rfl⟩⟩
  · exact ⟨_, _, _, .inr ⟨rfl, rfl⟩⟩

theorem formI1_some {f : Word → Instr} (h : formI1 f ops = some i) : ∃ v, ops = [.imm v] ∧ i = f v := by
  unfold formI1 at h
  split at h <;> cases h
  exact ⟨_, rfl, rfl⟩

theorem formRi_some {f : RegIdx → Word → Instr} (h : formRi f ops = some i) :
    ∃ a v, ops = [.reg a, .imm v] ∧ i = f a v := by
  unfold formRi at h
  split at h <;> cases h
  exact ⟨_, _, rfl, rfl⟩

theorem formJal_some {f : Word → Instr} {g : RegIdx → Word → Instr} (h : formJal f g ops = some i) :
    (∃ v, ops = [.imm v] ∧ i = f v) ∨ ∃ a v, ops = [.reg a, .imm v] ∧ i = g a v := by
  unfold formJal at h
  split at h <;> cases h
  · exact .inl ⟨_, rfl, rfl⟩
  · exact .inr ⟨_, _, rfl, rfl⟩

theorem formN_some {f : Instr} (h : formN f ops = some i) : ops = [] ∧ i = f := by
  unfold formN at h
  split at h <;> cases h
  exact ⟨rfl, rfl⟩

end

/-- Selection keeps the operand list (R86). -/
theorem operands_of_select {m : Mnemonic} {ops : List Operand} {i : Instr} (h : select m ops = some i) :
    i.operands = ops := by
  cases m
  case lb | lh | lw | lbu | lhu | sb | sh | sw =>
    obtain ⟨a, b, v, ⟨rfl, rfl⟩ | ⟨rfl, rfl⟩⟩ := formMem_some h <;> rfl
  case sll | srl | sra | add | sub | and | or | xor | slt | sltu => obtain ⟨a, b, c, rfl, rfl⟩ := formR3_some h; rfl
  case slli | srli | srai | addi | beq | bne | blt | bge | bltu | bgeu =>
    obtain ⟨a, b, v, rfl, rfl⟩ := formRri_some h; rfl
  case andi | ori | xori | slti | sltiu | lui | auipc => cases h; rfl
  case j => obtain ⟨v, rfl, rfl⟩ := formI1_some h; rfl
  case jal => obtain ⟨v, rfl, rfl⟩ | ⟨a, v, rfl, rfl⟩ := formJal_some h <;> rfl
  case jalr => obtain ⟨a, v, rfl, rfl⟩ := formRi_some h; rfl
  case ret | ecall | scall | ebreak | sbreak | nop => obtain ⟨rfl, rfl⟩ := formN_some h; rfl

/-- Settles O1: fifteen words, each run through the decoder. -/
theorem sampleWordsDecode : Obligations.SampleWordsDecode := by
  unfold Obligations.SampleWordsDecode
  decide

/-- Settles O8: selection keeps the mnemonic that the word names and the operands it carries. -/
theorem reportsTheFetchedInstruction : Obligations.ReportsTheFetchedInstruction := by
  intro w i hd
  calc i.decoded = ⟨.known i.mnemonic, i.operands⟩ := rfl
    _ = ⟨(unpack w).name, (unpack w).ops⟩ := by
      rw [unpack_name_of_decode hd, operands_of_select (select_of_decode hd)]

end Sys2Proof
end

section
/-! What one step that answers a next state has done: run start, the end of the loop, or an iteration; and what its
handler, its hand-off and its fault have done. -/

namespace Sys2Proof.Machine

/-! ### Handlers -/

/-- From `s` to `t` only the registers, the pc and D-space may differ. -/
def OnlyData (s t : State) : Prop :=
  t = { s with regs := t.regs, pc := t.pc, dmem := t.dmem }

theorem setReg_onlyData (s : State) (rd : RegIdx) (v : Word) : OnlyData s (s.setReg rd v) := by
  unfold OnlyData State.setReg
  split <;> rfl

theorem setPc_onlyData {s t : State} (h : OnlyData s t) (p : Word) : OnlyData s (t.setPc p) := by
  rw [OnlyData, h]
  rfl

/-- The handler of an instruction that answers a next state has done one of these. -/
inductive ExecsTo (i : Instr) (s t : State) : Prop where
  | data (h : OnlyData s t) (hmem : storesBytes i = false → t.dmem = s.dmem)
  | fault (a : Word) (d : Option Decoded) (k : FaultKind) (m : FaultMessage) (h : handleFault a d k m s = .next t)
  | debug (h : debugLaunch .breakpoint s = .next t)
  | syscall (hi : callsHandler i = true) (h : sysHandle i s = .next t)

theorem exec_next {i : Instr} {s t : State} (h : exec i s = .next t) : ExecsTo i s t := by
  have hdoes := exec_does i s
  generalize exec i s = o at h hdoes
  cases hdoes with
  | result rd v => cases h; exact .data (setReg_onlyData s rd v) fun _ => by simp
  | jump p => cases h; exact .data rfl fun _ => rfl
  | link rd v p => cases h; exact .data (setPc_onlyData (setReg_onlyData s rd v) p) fun _ => by simp
  | nothing => cases h; exact .data rfl fun _ => rfl
  | write u a n v hi hw =>
    cases h
    obtain ⟨-, rfl⟩ := State.memWrite_some hw
    exact .data rfl fun hno => by simp [hno] at hi
  | refusedAccess a => exact .fault _ _ _ _ h
  | unimplemented hi => exact .fault _ _ _ _ h
  | debug hi => exact .debug h
  | syscall hi => exact .syscall hi h

/-- A debug hand-off that returns has reported itself, and the session has had its effect (R237). -/
theorem debugLaunch_next {r : DebugReason} {s t : State} (h : debugLaunch r s = .next t) :
    t = (s.emit (.debugLaunched r s.pc)).debugEffect := by
  obtain ⟨-, hstop⟩ | ⟨-, hgo⟩ := debugLaunch_cases r s
  · rw [hstop] at h; cases h
  · rw [hgo, next_inj] at h
    exact h.symm

/-- What the syscall hand-off makes of the state, before any fault of the handler is taken (R235). -/
def State.handedOff (s : State) : State :=
  (s.emit (.syscallIssued s.syscallNumber)).syscallEffect (syscallReply s.syscallNumber s)

theorem State.handedOff_status (s : State) : s.handedOff.status = s.status := by
  simp [State.handedOff, State.syscallEffect_keeps]

theorem State.handedOff_pc (s : State) : s.handedOff.pc = s.pc := by
  simp [State.handedOff, State.syscallEffect_keeps]

theorem State.handedOff_platform (s : State) : s.handedOff.platform = s.platform := by
  simp [State.handedOff, State.syscallEffect_keeps]

/-- A syscall hand-off that returns leaves the handler's effect, or the syscall fault taken on it (R235, R254). -/
theorem sysHandle_next {i : Instr} {s t : State} (h : sysHandle i s = .next t) :
    t = s.handedOff ∨ ∃ a d m, handleFault a d .syscallFault m s.handedOff = .next t := by
  obtain ⟨-, hstop⟩ | ⟨-, -, hgo⟩ | ⟨text, -, -, hraise⟩ := sysHandle_cases i s
  · rw [hstop] at h; cases h
  · rw [hgo, next_inj] at h
    exact .inl h.symm
  · rw [hraise] at h
    exact .inr ⟨_, _, _, h⟩

/-- A rejected word aborts the run, or takes the malformed-instruction fault (R118, R119). -/
theorem rejectDecoded_next_cases {d : Decoded} {r : Reject} {s t : State} (h : rejectDecoded d r s = .next t) :
    t = { s with status := .aborted .internalDefect } ∨
      ∃ a d' m, handleFault a d' .malformedInstruction m s = .next t := by
  cases r with
  | unregistered tag => cases h; exact .inl rfl
  | operandCount m => exact .inr ⟨_, _, _, h⟩
  | operandKind m => exact .inr ⟨_, _, _, h⟩

/-- The seeding writes registers and the pc (R286). -/
theorem State.seed_eq (s : State) : s.seed = { s with regs := s.seed.regs, pc := s.loaded.runPointer } := by
  unfold State.seed State.setReg
  split <;> split <;> rfl

/-- Run start seeds the state, and enters the loop or ends the run (R123, R286). -/
theorem runStart_cases (s : State) :
    (s.loaded.runPointer.toInt ≤ 0 ∧ runStart s = s.seed.endRun .neverStarted) ∨
      (0 < s.loaded.runPointer.toInt ∧ runStart s = { s.seed with status := .running }) := by
  unfold runStart signed
  split
  · next h => exact .inl ⟨h, rfl⟩
  · next h => exact .inr ⟨Int.not_le.mp h, rfl⟩

/-- All that run start can do: the seeding's registers, the pc, the status and the trace (R123, R286). -/
theorem runStart_eq (s : State) : runStart s = { s with
    regs := s.seed.regs, pc := s.loaded.runPointer, status := (runStart s).status, trace := (runStart s).trace } := by
  obtain ⟨-, hr⟩ | ⟨-, hr⟩ := runStart_cases s
  · rw [hr, s.seed_eq]; rfl
  · rw [hr, s.seed_eq]

end Sys2Proof.Machine

namespace Sys2Proof.Machine.Claims

/-! ### Steps -/

/-- A step that answers a next state has done one of these (R110, R112). -/
inductive StepsTo (s t : State) : Prop where
  | start (hs : s.status = .idle) (h : t = runStart s)
  | exit (hs : s.status = .running) (he : s.exit = true) (h : t = s.endRun .exitFlag)
  | noInstruction (hs : s.status = .running) (he : s.exit = false) (hf : IMem.lookup s.imem s.pc.toNat = none)
      (h : handleFault s.pc none .memoryFault (.badAddress s.pc) s.countCycle = .next t)
  | reject (w : Diw) (r : Reject) (hf : Fetches s w) (hd : decode w = .error r)
      (h : rejectDecoded (unpack w) r (entered s) = .next t)
  | execute (w : Diw) (i : Instr) (hf : Fetches s w) (hd : decode w = .ok i) (h : exec i (entered s) = .next t)

theorem step_next {s t : State} (h : step s = .next t) : StepsTo s t := by
  have hsteps := step_steps s
  generalize step s = o at h hsteps
  cases hsteps with
  | start hs => exact .start hs (next_inj.mp h).symm
  | exit hs he => exact .exit hs he (next_inj.mp h).symm
  | noInstruction hs he hf => exact .noInstruction hs he hf h
  | reject hs he w hf r hd => rw [countCycle_advancePc] at h; exact .reject w r ⟨hs, he, hf⟩ hd h
  | execute hs he w hf i hd => rw [countCycle_advancePc] at h; exact .execute w i ⟨hs, he, hf⟩ hd h
  | finished hs => cases h

end Sys2Proof.Machine.Claims
end

section
/-! The invariant, first half: D-space in canonical form and only where it exists, the instruction store in canonical form,
register 0 zero where it is hardwired. Every operation keeps it. -/

namespace Sys2Proof.Machine

/-- The clauses of `Inv` about the stores and the registers. -/
structure StoresSound (s : State) : Prop where
  memory : Memory.wf s.dmem = true
  inside : memInside s = true
  code : IMem.wf s.imem = true
  zeroReg : s.platform.x0Hardwired = true → s.regs[0] = 0

theorem Inv.storesSound {s : State} (h : Inv s) : StoresSound s :=
  ⟨h.memory, h.inside, h.code, h.zeroReg⟩

/-- The clauses rest on the registers, the two stores and the parameters alone. -/
theorem StoresSound.congr {s t : State} (h : StoresSound s) (hregs : t.regs = s.regs) (hdmem : t.dmem = s.dmem)
    (himem : t.imem = s.imem) (hplatform : t.platform = s.platform) : StoresSound t where
  memory := by rw [hdmem]; exact h.memory
  inside := by rw [memInside, hdmem, hplatform]; exact h.inside
  code := by rw [himem]; exact h.code
  zeroReg := by rw [hplatform, hregs]; exact h.zeroReg

/-! ### Registers -/

theorem StoresSound.setReg {s : State} (h : StoresSound s) (rd : RegIdx) (v : Word) : StoresSound (s.setReg rd v) := by
  by_cases hz : s.isZeroReg rd = true
  · rwa [State.setReg_zero hz]
  · rw [Bool.not_eq_true] at hz
    rw [State.setReg_of_ne hz]
    refine ⟨h.memory, h.inside, h.code, fun hhard => ?_⟩
    have hrd : rd ≠ 0 := by
      rintro rfl
      simp [State.isZeroReg] at hz
      simp [hz] at hhard
    have hne : rd.toNat ≠ 0 := fun e => hrd (BitVec.eq_of_toNat_eq e)
    rw [Vector.getElem_set_ne _ _ hne]
    exact h.zeroReg hhard

/-! ### D-space -/

theorem memInside_iff (s : State) : memInside s = true ↔ ∀ c ∈ s.dmem, mappedAt s.platform c.1 = true := by
  simp [memInside]

/-- A byte written where D-space exists keeps the cells where it exists. -/
theorem StoresSound.storeByte {s : State} (h : StoresSound s) (a : Word) (v : Byte)
    (ha : mappedAt s.platform a.toNat = true) : StoresSound { s with dmem := Memory.store s.dmem a.toNat v } where
  memory := Memory.wf_store v a.isLt h.memory
  inside := by
    rw [memInside_iff]
    intro c hc
    obtain hold | hnew := Memory.mem_store hc
    · exact (memInside_iff s).mp h.inside c hold
    · rw [hnew]; exact ha
  code := h.code
  zeroReg := h.zeroReg

/-- Bytes written where D-space exists keep the cells where it exists. -/
theorem StoresSound.storeBytes {s : State} (h : StoresSound s) (a : Word) (bs : List Byte)
    (ha : ∀ k < bs.length, mappedAt s.platform (byteAddr a k).toNat = true) :
    StoresSound { s with dmem := Memory.storeBytes s.dmem a bs } := by
  induction bs generalizing s a with
  | nil => exact h
  | cons b bs ih =>
    have h0 : mappedAt s.platform a.toNat = true := by simpa [byteAddr] using ha 0 (by simp)
    refine ih (h.storeByte a b h0) (a + 1) fun k hk => ?_
    rw [byteAddr_succ]
    exact ha (k + 1) (by simpa using hk)

/-- An admitted write transaction lies where D-space exists (R53, R58). -/
theorem StoresSound.memWrite {s t : State} {a : Word} {n : Nat} {v : BitVec (8 * n)} (h : StoresSound s)
    (hw : s.memWrite a n v = some t) : StoresSound t := by
  obtain ⟨hadm, rfl⟩ := State.memWrite_some hw
  refine h.storeBytes a _ fun k hk => State.admits_mapped hadm k ?_
  rwa [inOrder_length] at hk

/-! ### Collaborators -/

theorem StoresSound.hostByte {s : State} (h : StoresSound s) (c : Word × Byte) : StoresSound (s.hostByte c) := by
  unfold State.hostByte
  split
  · next hmapped => exact h.storeByte c.1 c.2 hmapped
  · exact h

/-- What a collaborator writes to registers and D-space keeps both sound (R236, log 8). -/
theorem StoresSound.hostWrites {s : State} (h : StoresSound s) (w : HostWrites) : StoresSound (s.hostWrites w) := by
  unfold State.hostWrites
  refine List.foldlRecOn _ _ ?_ fun t ht c _ => ht.hostByte c
  exact List.foldlRecOn _ _ h fun t ht c _ => ht.setReg c.1 c.2

theorem StoresSound.debugEffect {s : State} (h : StoresSound s) : StoresSound s.debugEffect := by
  have hcount : StoresSound s.countHandoff := h.congr rfl rfl rfl rfl
  unfold State.debugEffect
  split
  · exact hcount
  · exact hcount.hostWrites _

theorem StoresSound.handedOff {s : State} (h : StoresSound s) : StoresSound s.handedOff := by
  have hcount : StoresSound (s.emit (.syscallIssued s.syscallNumber)).countHandoff := h.congr rfl rfl rfl rfl
  exact (hcount.hostWrites _).congr rfl rfl rfl rfl

/-! ### Faults, handlers and steps -/

theorem StoresSound.after_debugLaunch {s t : State} {r : DebugReason} (h : StoresSound s) (ht : debugLaunch r s = .next t) :
    StoresSound t := by
  rw [debugLaunch_next ht]
  exact StoresSound.debugEffect (h.congr rfl rfl rfl rfl)

theorem StoresSound.after_handleFault {s t : State} {a : Word} {d : Option Decoded} {k : FaultKind} {m : FaultMessage}
    (h : StoresSound s) (ht : handleFault a d k m s = .next t) : StoresSound t := by
  obtain ⟨-, hnext⟩ | ⟨-, -, hstop⟩ | ⟨-, -, hnext⟩ := handleFault_cases a d k m s
  · rw [hnext, next_inj] at ht
    exact ht ▸ h.congr rfl rfl rfl rfl
  · rw [hstop] at ht; cases ht
  · rw [hnext, next_inj] at ht
    have hreported : StoresSound ((s.emit (.faultReport a d k m)).emit (.debugLaunched .fault s.pc)) :=
      h.congr rfl rfl rfl rfl
    exact ht ▸ hreported.debugEffect.congr rfl rfl rfl rfl

theorem StoresSound.after_sysHandle {s t : State} {i : Instr} (h : StoresSound s) (ht : sysHandle i s = .next t) :
    StoresSound t := by
  obtain rfl | ⟨a, d, m, hfault⟩ := sysHandle_next ht
  · exact h.handedOff
  · exact h.handedOff.after_handleFault hfault

theorem StoresSound.after_exec {s t : State} {i : Instr} (h : StoresSound s) (ht : exec i s = .next t) : StoresSound t := by
  have hdoes := exec_does i s
  generalize exec i s = o at ht hdoes
  cases hdoes with
  | result rd v => cases ht; exact h.setReg rd v
  | jump p => cases ht; exact h.congr rfl rfl rfl rfl
  | link rd v p => cases ht; exact (h.setReg rd v).congr rfl rfl rfl rfl
  | nothing => cases ht; exact h
  | write u a n v hi hw => cases ht; exact h.memWrite hw
  | refusedAccess a => exact h.after_handleFault ht
  | unimplemented hi => exact h.after_handleFault ht
  | debug hi => exact h.after_debugLaunch ht
  | syscall hi => exact h.after_sysHandle ht

theorem StoresSound.after_runStart {s : State} (h : StoresSound s) : StoresSound (runStart s) := by
  have hpc : StoresSound (s.setPc s.loaded.runPointer) := h.congr rfl rfl rfl rfl
  have hseed : StoresSound s.seed := (hpc.setReg _ _).setReg _ _
  obtain ⟨-, hr⟩ | ⟨-, hr⟩ := runStart_cases s
  all_goals
    rw [hr]
    exact hseed.congr rfl rfl rfl rfl

theorem StoresSound.after_rejectDecoded {s t : State} {d : Decoded} {r : Reject} (h : StoresSound s)
    (ht : rejectDecoded d r s = .next t) : StoresSound t := by
  obtain rfl | ⟨a, d', m, hfault⟩ := rejectDecoded_next_cases ht
  · exact h.congr rfl rfl rfl rfl
  · exact h.after_handleFault hfault

end Sys2Proof.Machine

namespace Sys2Proof.Machine.Claims

theorem storesSound_step {s t : State} (h : StoresSound s) (ht : step s = .next t) : StoresSound t := by
  have hentered : StoresSound (entered s) := h.congr rfl rfl rfl rfl
  cases step_next ht with
  | start hs ht => rw [ht]; exact h.after_runStart
  | exit hs he ht => rw [ht]; exact h.congr rfl rfl rfl rfl
  | noInstruction hs he hf ht => exact StoresSound.after_handleFault (s := s.countCycle) (h.congr rfl rfl rfl rfl) ht
  | reject w r hf hd ht => exact hentered.after_rejectDecoded ht
  | execute w i hf hd ht => exact hentered.after_exec ht

end Sys2Proof.Machine.Claims
end

section
/-! The invariant, second half: the trace agrees with the status, and nothing is counted before a run has begun. -/

namespace Sys2Proof.Machine

/-- From `s` to `t` the status stays, and only events that close nothing are reported. -/
def StaysOpen (s t : State) : Prop :=
  t.status = s.status ∧ ∃ es, t.trace = s.trace ++ es ∧ openTrace es = true

theorem openTrace_append (es fs : List Event) : openTrace (es ++ fs) = (openTrace es && openTrace fs) :=
  List.all_append

/-- The run has begun, and the trace agrees with the status. -/
structure BegunAndAgrees (t : State) : Prop where
  notIdle : t.status ≠ .idle
  started : t.status ≠ .halted .neverStarted
  trace : traceAgrees t

theorem begunAndAgrees_of_running {t : State} (hs : t.status = .running) (h : openTrace t.trace = true) :
    BegunAndAgrees t where
  notIdle := by simp [hs]
  started := by simp [hs]
  trace := by rw [traceAgrees, hs]; exact h

/-- Where only open events were reported, a running state is still running and its trace open. -/
theorem StaysOpen.running {s t : State} (h : StaysOpen s t) (hs : s.status = .running)
    (hopen : openTrace s.trace = true) : t.status = .running ∧ openTrace t.trace = true := by
  obtain ⟨hstatus, es, htrace, hes⟩ := h
  refine ⟨hstatus.trans hs, ?_⟩
  rw [htrace, openTrace_append, hopen, hes]
  rfl

theorem StaysOpen.begunAndAgrees {s t : State} (h : StaysOpen s t) (hs : s.status = .running)
    (hopen : openTrace s.trace = true) : BegunAndAgrees t := by
  obtain ⟨hstatus, htrace⟩ := h.running hs hopen
  exact begunAndAgrees_of_running hstatus htrace

/-! ### Faults, hand-offs and handlers -/

/-- A fault taken on an open trace closes it with its report, its debug launch and the exit report (R259). -/
theorem begunAndAgrees_of_handleFault {s t : State} {a : Word} {d : Option Decoded} {k : FaultKind} {m : FaultMessage}
    (hopen : openTrace s.trace = true) (h : handleFault a d k m s = .next t) : BegunAndAgrees t := by
  obtain ⟨hstatus, htrace, -, hcode, hpc, -, hcfg, -⟩ := handleFault_next h
  refine ⟨by simp [hstatus], by simp [hstatus], ?_⟩
  rw [traceAgrees, hstatus]
  exact ⟨_, _, htrace, hopen, a, d, m, by rw [hcfg, hpc, hcode]⟩

theorem staysOpen_of_debugLaunch {r : DebugReason} {s t : State} (h : debugLaunch r s = .next t) : StaysOpen s t := by
  obtain ⟨htrace, -, hstatus, -⟩ := State.debugEffect_keeps (s.emit (.debugLaunched r s.pc))
  rw [debugLaunch_next h]
  exact ⟨hstatus, _, htrace, rfl⟩

theorem State.handedOff_staysOpen (s : State) : StaysOpen s s.handedOff := by
  obtain ⟨htrace, hstatus, -⟩ := State.syscallEffect_keeps (s.emit (.syscallIssued s.syscallNumber))
    (syscallReply s.syscallNumber s)
  exact ⟨hstatus, _, htrace, rfl⟩

theorem OnlyData.staysOpen {s t : State} (h : OnlyData s t) : StaysOpen s t := by
  rw [h]
  exact ⟨rfl, [], (List.append_nil _).symm, rfl⟩

/-- A handler leaves the run open, or closes its trace with one fault. -/
theorem begunAndAgrees_of_exec {i : Instr} {s t : State} (hs : s.status = .running) (hopen : openTrace s.trace = true)
    (h : exec i s = .next t) : BegunAndAgrees t := by
  cases exec_next h with
  | data hdata hmem => exact hdata.staysOpen.begunAndAgrees hs hopen
  | fault a d k m hfault => exact begunAndAgrees_of_handleFault hopen hfault
  | debug hlaunch => exact (staysOpen_of_debugLaunch hlaunch).begunAndAgrees hs hopen
  | syscall hi hcall =>
    obtain rfl | ⟨a, d, m, hfault⟩ := sysHandle_next hcall
    · exact s.handedOff_staysOpen.begunAndAgrees hs hopen
    · obtain ⟨-, hopen'⟩ := s.handedOff_staysOpen.running hs hopen
      exact begunAndAgrees_of_handleFault hopen' hfault

/-- A rejected word aborts with nothing reported, or closes the trace with its fault (R118, R119). -/
theorem begunAndAgrees_of_rejectDecoded {d : Decoded} {r : Reject} {s t : State} (hopen : openTrace s.trace = true)
    (h : rejectDecoded d r s = .next t) : BegunAndAgrees t := by
  obtain rfl | ⟨a, d', m, hfault⟩ := rejectDecoded_next_cases h
  · exact ⟨by simp, by simp, hopen⟩
  · exact begunAndAgrees_of_handleFault hopen hfault

/-! ### Steps -/

/-- Run start enters the loop with an empty trace, or reports the exit code and nothing else (R123, R285). -/
theorem traceAgrees_runStart {s : State} (hs : s.status = .idle) (h : traceAgrees s) : traceAgrees (runStart s) := by
  obtain ⟨htrace, -⟩ := s.seed_keeps
  have hempty : s.seed.trace = [] := by rw [traceAgrees, hs] at h; rw [htrace, h]
  obtain ⟨-, hr⟩ | ⟨-, hr⟩ := runStart_cases s
  · rw [hr]
    exact ⟨[], _, by rw [State.endRun_trace, hempty]; rfl, rfl, rfl⟩
  · rw [hr]
    show openTrace s.seed.trace = true
    rw [hempty]
    rfl

/-- Run start counts nothing, and writes neither the exit flag nor the exit code (R286). -/
theorem runStart_frame (s : State) :
    (runStart s).exit = s.exit ∧ (runStart s).exitCode = s.exitCode ∧ (runStart s).cycle = s.cycle := by
  rw [runStart_eq]
  exact ⟨rfl, rfl, rfl⟩

end Sys2Proof.Machine

namespace Sys2Proof.Machine.Claims

/-- A state sound in its stores, whose run has begun, meets the invariant. -/
theorem inv_of_begun {t : State} (h : StoresSound t) (ht : BegunAndAgrees t) : Inv t where
  memory := h.memory
  inside := h.inside
  code := h.code
  zeroReg := h.zeroReg
  trace := ht.trace
  before := by rintro (hidle | hnever); exacts [absurd hidle ht.notIdle, absurd hnever ht.started]

/-- Settles O25: every operation keeps the stores sound; run start begins an empty trace, and an iteration leaves the
run open or closes its trace once. -/
theorem everyStepKeepsTheInvariant : Obligations.EveryStepKeepsTheInvariant := by
  intro s t hinv hstep
  have hsound : StoresSound t := storesSound_step hinv.storesSound hstep
  have hopen (hs : s.status = .running) : openTrace s.trace = true := by
    have htrace := hinv.trace
    rwa [traceAgrees, hs] at htrace
  cases step_next hstep with
  | start hs ht =>
    subst ht
    obtain ⟨hexit, hcode, hcycle⟩ := runStart_frame s
    refine ⟨hsound.memory, hsound.inside, hsound.code, hsound.zeroReg, traceAgrees_runStart hs hinv.trace, fun _ => ?_⟩
    rw [hexit, hcode, hcycle]
    exact hinv.before (.inl hs)
  | exit hs he ht =>
    subst ht
    exact inv_of_begun hsound ⟨by simp, by simp, s.trace, _, rfl, hopen hs, rfl⟩
  | noInstruction hs he hf hfault =>
    exact inv_of_begun hsound (begunAndAgrees_of_handleFault (s := s.countCycle) (hopen hs) hfault)
  | reject w r hf hd hreject =>
    obtain ⟨hs, -⟩ := hf
    exact inv_of_begun hsound (begunAndAgrees_of_rejectDecoded (s := entered s) (hopen hs) hreject)
  | execute w i hf hd hexec =>
    obtain ⟨hs, -⟩ := hf
    exact inv_of_begun hsound (begunAndAgrees_of_exec (s := entered s) hs (hopen hs) hexec)

/-- Settles O26: both states are concrete, with empty stores and an empty trace. -/
theorem resetMeetsTheInvariant : Obligations.ResetMeetsTheInvariant :=
  ⟨⟨rfl, rfl, rfl, fun _ => rfl, rfl, fun _ => ⟨rfl, rfl, rfl⟩⟩,
    ⟨rfl, rfl, rfl, fun _ => rfl, rfl, fun _ => ⟨rfl, rfl, rfl⟩⟩⟩

end Sys2Proof.Machine.Claims
end

section
/-! The loop (R110 to R122): what a step is in each case, and when it answers a next state. -/

namespace Sys2Proof.Machine.Claims

/-- Settles O9: the step dispatches the word it fetches. -/
theorem stepRunsTheDecodedInstruction : Obligations.StepRunsTheDecodedInstruction :=
  fun _ _ _ hf hd _ => step_of_decode_ok hf hd

theorem step_of_inLoop {s : State} (hs : s.status = .running) (he : s.exit = false) : step s = iterate s := by
  simp [step, hs, loopTop, he]

/-- Settles O10: the fetch is the iteration's second action, before the pc is advanced. -/
theorem fetchFaultKeepsThePc : Obligations.FetchFaultKeepsThePc := by
  intro s hs he hf
  have hfetch : s.countCycle.fetchInstr s.pc = none := hf
  rw [step_of_inLoop hs he, iterate, hfetch]
  rfl

/-- Settles O12: the test of the exit flag comes before the iteration. -/
theorem exitFlagEndsTheRun : Obligations.ExitFlagEndsTheRun := by
  intro s hs he
  have hend : step s = .next (s.endRun .exitFlag) := by simp [step, hs, loopTop, he]
  exact hend

/-- Settles O14: where every collaborator returns a fault is taken, and what it leaves is what any fault taken does. -/
theorem takingAFaultReportsAndHalts : Obligations.TakingAFaultReportsAndHalts := by
  intro s a d k m hreturns
  obtain ⟨t, hnext⟩ := hreturns.exists_handleFault a d k m
  obtain ⟨hstatus, htrace, hexit, hcode, hpc, hcycle, -, -, -, -, hsame⟩ := handleFault_next hnext
  exact ⟨t, hnext, hstatus, htrace, hexit, hcode, hpc, hcycle, hsame⟩

/-! ### Progress -/

/-- An outcome that is a next state, or the block of a collaborator that may not return (log 10). -/
def AnswersOrBlocks (s : State) (o : Host.Outcome State Fault Refusal) : Prop :=
  (∃ t, o = .next t) ∨ (o = .fault .collaboratorNeverReturns ∧ ¬ Returns s)

theorem not_returns_of_blocked {s : State} (h : s.blocked = true) : ¬ Returns s := by
  intro hreturns
  rw [hreturns.not_blocked] at h
  cases h

theorem debugLaunch_answersOrBlocks (r : DebugReason) (s : State) : AnswersOrBlocks s (debugLaunch r s) := by
  obtain ⟨hb, hstop⟩ | ⟨-, hgo⟩ := debugLaunch_cases r s
  · exact .inr ⟨hstop, not_returns_of_blocked hb⟩
  · exact .inl ⟨_, hgo⟩

theorem handleFault_answersOrBlocks (a : Word) (d : Option Decoded) (k : FaultKind) (m : FaultMessage) (s : State) :
    AnswersOrBlocks s (handleFault a d k m s) := by
  obtain ⟨-, hgo⟩ | ⟨-, hb, hstop⟩ | ⟨-, -, hgo⟩ := handleFault_cases a d k m s
  · exact .inl ⟨_, hgo⟩
  · exact .inr ⟨hstop, not_returns_of_blocked hb⟩
  · exact .inl ⟨_, hgo⟩

theorem sysHandle_answersOrBlocks (i : Instr) (s : State) : AnswersOrBlocks s (sysHandle i s) := by
  obtain ⟨hb, hstop⟩ | ⟨-, -, hgo⟩ | ⟨text, -, -, hraise⟩ := sysHandle_cases i s
  · exact .inr ⟨hstop, not_returns_of_blocked hb⟩
  · exact .inl ⟨_, hgo⟩
  · rw [hraise]
    have hfault := handleFault_answersOrBlocks s.handedOff.instrAddr (some i.decoded) .syscallFault (.syscall text) s.handedOff
    rwa [AnswersOrBlocks, Returns, s.handedOff_platform] at hfault

theorem exec_answersOrBlocks (i : Instr) (s : State) : AnswersOrBlocks s (exec i s) := by
  have hdoes := exec_does i s
  generalize exec i s = o at hdoes
  cases hdoes with
  | result | jump | link | nothing | write => exact .inl ⟨_, rfl⟩
  | refusedAccess | unimplemented => exact handleFault_answersOrBlocks ..
  | debug => exact debugLaunch_answersOrBlocks ..
  | syscall => exact sysHandle_answersOrBlocks ..

theorem rejectDecoded_answersOrBlocks (d : Decoded) (r : Reject) (s : State) :
    AnswersOrBlocks s (rejectDecoded d r s) := by
  cases r with
  | unregistered tag => exact .inl ⟨_, rfl⟩
  | operandCount m => exact handleFault_answersOrBlocks ..
  | operandKind m => exact handleFault_answersOrBlocks ..

/-- A step of a run that has not ended answers a next state, or blocks (log 10). -/
theorem step_answersOrBlocks {s : State} (h : s.ended = false) : AnswersOrBlocks s (step s) := by
  have hsteps := step_steps s
  generalize step s = o at hsteps
  cases hsteps with
  | start | exit => exact .inl ⟨_, rfl⟩
  | noInstruction => exact handleFault_answersOrBlocks _ _ _ _ s.countCycle
  | reject hs he w hf r hd => exact rejectDecoded_answersOrBlocks _ r s.countCycle.advancePc
  | execute hs he w hf i hd => exact exec_answersOrBlocks i s.countCycle.advancePc
  | finished hended => rw [h] at hended; cases hended

/-- A run that has ended takes no step (R32). -/
theorem step_of_ended {s : State} (h : s.ended = true) : step s = .fault .runEnded := by
  unfold State.ended at h
  unfold step
  split at h <;> simp_all

/-- Settles O15: an ended run takes no step, and any other answers or blocks. -/
theorem everyRunningStateSteps : Obligations.EveryRunningStateSteps := by
  intro s
  cases hended : s.ended with
  | true =>
    have hstop := step_of_ended hended
    exact ⟨iff_of_true hstop rfl, by simp [hstop], fun _ hno => absurd hno (by simp)⟩
  | false =>
    obtain ⟨t, hgo⟩ | ⟨hstop, hblocks⟩ := step_answersOrBlocks hended
    · exact ⟨iff_of_false (by simp [hgo]) (by simp), by simp [hgo], fun _ _ => ⟨t, hgo⟩⟩
    · exact ⟨iff_of_false (by simp [hstop]) (by simp), by simp [hstop], fun hreturns _ => absurd hreturns hblocks⟩

end Sys2Proof.Machine.Claims
end

section
/-! What every step keeps: the configuration, the stores of the run, the parameters, the exit flag once it is set; and what
only some instructions change: the exit code, D-space, the pc. -/

namespace Sys2Proof.Machine

/-- From `s` to `t` no parameter changes and no cycle is counted, and the exit flag is not cleared. -/
structure Keeps (s t : State) : Prop where
  cfg : t.cfg = s.cfg
  imem : t.imem = s.imem
  loaded : t.loaded = s.loaded
  platform : t.platform = s.platform
  cycle : t.cycle = s.cycle
  exit : s.exit = true → t.exit = true

theorem Keeps.trans {s t u : State} (h : Keeps s t) (h' : Keeps t u) : Keeps s u where
  cfg := h'.cfg.trans h.cfg
  imem := h'.imem.trans h.imem
  loaded := h'.loaded.trans h.loaded
  platform := h'.platform.trans h.platform
  cycle := h'.cycle.trans h.cycle
  exit := h'.exit ∘ h.exit

theorem OnlyData.keeps {s t : State} (h : OnlyData s t) : Keeps s t := by
  rw [h]
  exact ⟨rfl, rfl, rfl, rfl, rfl, id⟩

theorem keeps_of_handleFault {s t : State} {a : Word} {d : Option Decoded} {k : FaultKind} {m : FaultMessage}
    (h : handleFault a d k m s = .next t) : Keeps s t := by
  obtain ⟨-, -, hexit, -, -, hcycle, hcfg, himem, hloaded, hplatform, -⟩ := handleFault_next h
  exact ⟨hcfg, himem, hloaded, hplatform, hcycle, hexit.trans⟩

theorem keeps_of_debugLaunch {r : DebugReason} {s t : State} (h : debugLaunch r s = .next t) : Keeps s t := by
  obtain ⟨-, -, -, -, hcycle, hexit, hcfg, himem, hloaded, hplatform⟩ :=
    State.debugEffect_keeps (s.emit (.debugLaunched r s.pc))
  rw [debugLaunch_next h]
  exact ⟨hcfg, himem, hloaded, hplatform, hcycle, hexit.trans⟩

theorem State.handedOff_keeps (s : State) : Keeps s s.handedOff := by
  obtain ⟨-, -, -, hcycle, hcfg, himem, hloaded, hplatform, hexit, -⟩ :=
    State.syscallEffect_keeps (s.emit (.syscallIssued s.syscallNumber)) (syscallReply s.syscallNumber s)
  refine ⟨hcfg, himem, hloaded, hplatform, hcycle, fun he => hexit.trans ?_⟩
  rw [State.emit_exit, he, Bool.true_or]

theorem keeps_of_exec {i : Instr} {s t : State} (h : exec i s = .next t) : Keeps s t := by
  cases exec_next h with
  | data hdata hmem => exact hdata.keeps
  | fault a d k m hfault => exact keeps_of_handleFault hfault
  | debug hlaunch => exact keeps_of_debugLaunch hlaunch
  | syscall hi hcall =>
    obtain rfl | ⟨a, d, m, hfault⟩ := sysHandle_next hcall
    · exact s.handedOff_keeps
    · exact s.handedOff_keeps.trans (keeps_of_handleFault hfault)

theorem keeps_of_rejectDecoded {d : Decoded} {r : Reject} {s t : State} (h : rejectDecoded d r s = .next t) :
    Keeps s t := by
  obtain rfl | ⟨a, d', m, hfault⟩ := rejectDecoded_next_cases h
  · exact ⟨rfl, rfl, rfl, rfl, rfl, id⟩
  · exact keeps_of_handleFault hfault

theorem runStart_keeps (s : State) : Keeps s (runStart s) := by
  rw [runStart_eq]
  exact ⟨rfl, rfl, rfl, rfl, rfl, id⟩

theorem exit_exitCode_of_handleFault {s t : State} {a : Word} {d : Option Decoded} {k : FaultKind} {m : FaultMessage}
    (h : handleFault a d k m s = .next t) : t.exit = s.exit ∧ t.exitCode = s.exitCode := by
  obtain ⟨-, -, hexit, hcode, -⟩ := handleFault_next h
  exact ⟨hexit, hcode⟩

/-- An instruction that does not call the Syscall Handler writes neither the exit flag nor the exit code (R29, R30). -/
theorem exit_exitCode_of_exec {i : Instr} {s t : State} (h : exec i s = .next t) (hi : callsHandler i = false) :
    t.exit = s.exit ∧ t.exitCode = s.exitCode := by
  cases exec_next h with
  | data hdata hmem => rw [hdata]; exact ⟨rfl, rfl⟩
  | fault a d k m hfault => exact exit_exitCode_of_handleFault hfault
  | debug hlaunch =>
    obtain ⟨-, hcode, -, -, -, hexit, -⟩ := State.debugEffect_keeps (s.emit (.debugLaunched .breakpoint s.pc))
    rw [debugLaunch_next hlaunch]
    exact ⟨hexit, hcode⟩
  | syscall hcalls _ => rw [hi] at hcalls; cases hcalls

/-- With a session that only inspects, a fault taken leaves D-space (R238, R259). -/
theorem dmem_of_handleFault {s t : State} {a : Word} {d : Option Decoded} {k : FaultKind} {m : FaultMessage}
    (h : handleFault a d k m s = .next t) (hinspect : s.platform.debug = .inspect) : t.dmem = s.dmem := by
  obtain ⟨-, -, -, -, -, -, -, -, -, -, hsame⟩ := handleFault_next h
  obtain ⟨-, hdmem⟩ := hsame (.inr hinspect)
  exact hdmem

/-- With a session that only inspects, an instruction that neither stores nor calls the Syscall Handler leaves D-space (R66). -/
theorem dmem_of_exec {i : Instr} {s t : State} (h : exec i s = .next t) (hinspect : s.platform.debug = .inspect)
    (hstores : storesBytes i = false) (hcalls : callsHandler i = false) : t.dmem = s.dmem := by
  cases exec_next h with
  | data hdata hmem => exact hmem hstores
  | fault a d k m hfault => exact dmem_of_handleFault hfault hinspect
  | debug hlaunch => 
    rw [debugLaunch_next hlaunch, State.debugEffect_inspect (s := s.emit (.debugLaunched .breakpoint s.pc)) hinspect]
    rfl
  | syscall hi _ => rw [hcalls] at hi; cases hi

end Sys2Proof.Machine

namespace Sys2Proof.Machine.Claims

/-- The state before a step, with the cycle counted if the step is an iteration of the loop (R113). -/
def counted (s : State) : State :=
  { s with cycle := if s.status = .running ∧ s.exit = false then s.cycle + 1 else s.cycle }

theorem counted_cycle_of_iteration {s : State} (hs : s.status = .running) (he : s.exit = false) :
    (counted s).cycle = s.cycle + 1 := if_pos ⟨hs, he⟩

/-- An iteration that keeps all from the state in which its handler or its fetch fault began keeps all but the cycle it
counted. -/
theorem Keeps.of_iteration {s u t : State} (hs : s.status = .running) (he : s.exit = false)
    (hu : u = { s with cycle := s.cycle + 1, pc := u.pc }) (h : Keeps u t) : Keeps (counted s) t := by
  refine Keeps.trans ?_ h
  rw [hu]
  exact ⟨rfl, rfl, rfl, rfl, (counted_cycle_of_iteration hs he).symm, id⟩

theorem keeps_of_step {s t : State} (h : step s = .next t) : Keeps (counted s) t := by
  cases step_next h with
  | start hs ht =>
    have hcounted : counted s = s := by rw [counted, if_neg (by simp [hs])]
    rw [hcounted, ht]
    exact runStart_keeps s
  | exit hs he ht =>
    have hcounted : counted s = s := by rw [counted, if_neg (by simp [he])]
    rw [hcounted, ht]
    exact ⟨rfl, rfl, rfl, rfl, rfl, id⟩
  | noInstruction hs he hf hfault => exact Keeps.of_iteration hs he rfl (keeps_of_handleFault hfault)
  | reject w r hf hd hreject =>
    obtain ⟨hs, he, -⟩ := hf
    exact Keeps.of_iteration hs he rfl (keeps_of_rejectDecoded hreject)
  | execute w i hf hd hexec =>
    obtain ⟨hs, he, -⟩ := hf
    exact Keeps.of_iteration hs he rfl (keeps_of_exec hexec)

/-- Settles O19: an iteration counts once, before its handler is entered, and nothing else counts. -/
theorem cycleCountsIterations : Obligations.CycleCountsIterations :=
  fun _ _ hstep => (keeps_of_step hstep).cycle

/-- Settles O20: every operation of a step keeps all four. -/
theorem parametersNeverChange : Obligations.ParametersNeverChange := by
  intro s t hstep
  have hkeeps := keeps_of_step hstep
  exact ⟨hkeeps.cfg, hkeeps.imem, hkeeps.loaded, hkeeps.platform⟩

/-- A step that is not one of `ecall` or `scall` writes neither the exit flag nor the exit code (R29, R30). -/
theorem exit_exitCode_of_step {s t : State} (h : step s = .next t)
    (hno : ¬ ∃ w, Fetches s w ∧ (decode w = .ok .ecall ∨ decode w = .ok .scall)) :
    t.exit = s.exit ∧ t.exitCode = s.exitCode := by
  cases step_next h with
  | start hs ht =>
    obtain ⟨hexit, hcode, -⟩ := runStart_frame s
    rw [ht]
    exact ⟨hexit, hcode⟩
  | exit hs he ht => rw [ht]; exact ⟨rfl, rfl⟩
  | noInstruction hs he hf hfault => exact exit_exitCode_of_handleFault (s := s.countCycle) hfault
  | reject w r hf hd hreject =>
    obtain rfl | ⟨a, d, m, hfault⟩ := rejectDecoded_next_cases hreject
    · exact ⟨rfl, rfl⟩
    · exact exit_exitCode_of_handleFault (s := entered s) hfault
  | execute w i hf hd hexec =>
    have hcalls : callsHandler i = false := by
      rw [← Bool.not_eq_true, callsHandler_iff]
      rintro (rfl | rfl)
      exacts [hno ⟨w, hf, .inl hd⟩, hno ⟨w, hf, .inr hd⟩]
    exact exit_exitCode_of_exec (s := entered s) hexec hcalls

/-- Settles O22: no operation clears the flag, and only the syscall hand-off writes the flag or the code. -/
theorem onlySyscallsSetExit : Obligations.OnlySyscallsSetExit := by
  intro s t hstep
  refine ⟨(keeps_of_step hstep).exit, fun hchanged => ?_⟩
  by_contra hno
  obtain ⟨hexit, hcode⟩ := exit_exitCode_of_step hstep hno
  exact hchanged.elim (· hexit) (· hcode)

theorem runStart_dmem (s : State) : (runStart s).dmem = s.dmem := by
  rw [runStart_eq]

/-- Settles O23: what is left of a step's operations writes no byte. -/
theorem onlyStoresAndHandoffsChangeMemory : Obligations.OnlyStoresAndHandoffsChangeMemory := by
  intro s t hstep hinspect hother
  refine State.byteAt_congr ?_
  cases step_next hstep with
  | start hs ht => rw [ht, runStart_dmem]
  | exit hs he ht => rw [ht]; rfl
  | noInstruction hs he hf hfault => exact dmem_of_handleFault (s := s.countCycle) hfault hinspect
  | reject w r hf hd hreject =>
    obtain rfl | ⟨a, d, m, hfault⟩ := rejectDecoded_next_cases hreject
    · rfl
    · exact dmem_of_handleFault (s := entered s) hfault hinspect
  | execute w i hf hd hexec =>
    obtain ⟨hstores, hcalls⟩ := hother w i hf hd
    exact dmem_of_exec (s := entered s) hexec hinspect hstores hcalls

end Sys2Proof.Machine.Claims
end

section
/-! What a fault leaves (R250 to R259), and where a memory fault comes from: the fetch, or the one access of a load or a
store; and the pc, which only branches and jumps move. -/

namespace Sys2Proof.Machine

/-! ### Loads and stores -/

/-- A load that answers a next state has written its register, or its read was refused and the fault taken (R149). -/
theorem load_next {i : Instr} {n : Nat} {extend : BitVec (8 * n) → Word} {rd base : RegIdx} {imm : Word} {s t : State}
    (h : load i n extend rd base imm s = .next t) :
    (∃ v, t = s.setReg rd v) ∨
      (s.admits .read (s.effectiveAddress base imm) n = false ∧ ∃ a d m, handleFault a d .memoryFault m s = .next t) := by
  unfold load at h
  split at h
  · exact .inl ⟨_, (next_inj.mp h).symm⟩
  · next hread => exact .inr ⟨by rw [← State.memRead_isSome, hread]; rfl, _, _, _, h⟩

/-- A store that answers a next state has written its bytes, or its write was refused and the fault taken (R149). -/
theorem store_next {i : Instr} {n : Nat} {src base : RegIdx} {imm : Word} {s t : State}
    (h : store i n src base imm s = .next t) :
    (∃ m, t = { s with dmem := m }) ∨
      (s.admits .write (s.effectiveAddress base imm) n = false ∧ ∃ a d m, handleFault a d .memoryFault m s = .next t) := by
  unfold store at h
  split at h
  · next u hwrite =>
    obtain ⟨-, rfl⟩ := State.memWrite_some hwrite
    exact .inl ⟨_, (next_inj.mp h).symm⟩
  · next hwrite => exact .inr ⟨by rw [← State.memWrite_isSome, hwrite]; rfl, _, _, _, h⟩

/-! ### The pc (R26) -/

theorem pc_of_handleFault {a : Word} {d : Option Decoded} {k : FaultKind} {m : FaultMessage} {s t : State}
    (h : handleFault a d k m s = .next t) : t.pc = s.pc := by
  obtain ⟨-, -, -, -, hpc, -⟩ := handleFault_next h
  exact hpc

theorem pc_of_load {i : Instr} {n : Nat} {extend : BitVec (8 * n) → Word} {rd base : RegIdx} {imm : Word} {s t : State}
    (h : load i n extend rd base imm s = .next t) : t.pc = s.pc := by
  obtain ⟨v, rfl⟩ | ⟨-, a, d, m, hfault⟩ := load_next h
  · exact State.setReg_pc ..
  · exact pc_of_handleFault hfault

theorem pc_of_store {i : Instr} {n : Nat} {src base : RegIdx} {imm : Word} {s t : State}
    (h : store i n src base imm s = .next t) : t.pc = s.pc := by
  obtain ⟨m, rfl⟩ | ⟨-, a, d, m, hfault⟩ := store_next h
  · rfl
  · exact pc_of_handleFault hfault

theorem pc_of_debugLaunch {r : DebugReason} {s t : State} (h : debugLaunch r s = .next t) : t.pc = s.pc := by
  rw [debugLaunch_next h]
  simp [State.debugEffect_keeps]

theorem pc_of_sysHandle {i : Instr} {s t : State} (h : sysHandle i s = .next t) : t.pc = s.pc := by
  obtain rfl | ⟨a, d, m, hfault⟩ := sysHandle_next h
  · exact s.handedOff_pc
  · rw [pc_of_handleFault hfault, s.handedOff_pc]

/-! ### Handlers that end the run -/

/-- A handler that ends the run on a fault other than a syscall fault has done nothing before it took the fault. -/
theorem exec_halted {i : Instr} {s t : State} {k : FaultKind} (hs : s.status = .running) (h : exec i s = .next t)
    (hk : t.status = .halted (.fault k)) (hne : k ≠ .syscallFault) : ∃ a d m, handleFault a d k m s = .next t := by
  cases exec_next h with
  | data hdata hmem => rw [hdata] at hk; simp [hs] at hk
  | fault a d k' m hfault => obtain rfl := eq_of_handleFault_halted hfault hk; exact ⟨a, d, m, hfault⟩
  | debug hlaunch => exact absurd hk ((debugLaunch_goesOn hlaunch).not_halted hs)
  | syscall hi hcall =>
    obtain rfl | ⟨a, d, m, hfault⟩ := sysHandle_next hcall
    · simp [s.handedOff_status, hs] at hk
    · exact absurd (eq_of_handleFault_halted hfault hk) hne

/-- The handler of `i`, entered in `s`, makes an access that the Memory collaborator refuses (R59, R149). -/
def AccessRefused (i : Instr) (s : State) : Prop :=
  ∃ rd base imm k n, (i.operands = [.reg rd, .reg base, .imm imm] ∨ i.operands = [.reg rd, .mem imm base]) ∧
    (i.mnemonic ∈ [.lb, .lbu] ∧ k = .read ∧ n = 1 ∨ i.mnemonic ∈ [.lh, .lhu] ∧ k = .read ∧ n = 2 ∨
      i.mnemonic = .lw ∧ k = .read ∧ n = 4 ∨ i.mnemonic = .sb ∧ k = .write ∧ n = 1 ∨
      i.mnemonic = .sh ∧ k = .write ∧ n = 2 ∨ i.mnemonic = .sw ∧ k = .write ∧ n = 4) ∧
    s.admits k (s.effectiveAddress base imm) n = false

theorem load_halted {i : Instr} {n : Nat} {extend : BitVec (8 * n) → Word} {rd base : RegIdx} {imm : Word} {s t : State}
    {r : HaltReason} (hs : s.status = .running) (h : load i n extend rd base imm s = .next t) (hk : t.status = .halted r) :
    s.admits .read (s.effectiveAddress base imm) n = false := by
  obtain ⟨v, rfl⟩ | ⟨hadmits, -⟩ := load_next h
  · simp [hs] at hk
  · exact hadmits

theorem store_halted {i : Instr} {n : Nat} {src base : RegIdx} {imm : Word} {s t : State} {r : HaltReason}
    (hs : s.status = .running) (h : store i n src base imm s = .next t) (hk : t.status = .halted r) :
    s.admits .write (s.effectiveAddress base imm) n = false := by
  obtain ⟨m, rfl⟩ | ⟨hadmits, -⟩ := store_next h
  · simp [hs] at hk
  · exact hadmits

theorem branchIf_status {c : Bool} {target : Word} {s t : State} (h : branchIf c target s = .next t) :
    t.status = s.status := by
  cases c <;> cases h <;> rfl

/-- A handler ends the run on a memory fault only where its access is refused: no other handler makes one (R251). -/
theorem accessRefused_of_exec {i : Instr} {s t : State} (hs : s.status = .running) (h : exec i s = .next t)
    (hk : t.status = .halted (.fault .memoryFault)) : AccessRefused i s := by
  cases i
  case lbRri rd base imm | lbuRri rd base imm | lhRri rd base imm | lhuRri rd base imm | lwRri rd base imm =>
    exact ⟨rd, base, imm, .read, _, .inl rfl, by simp [Instr.mnemonic], load_halted hs h hk⟩
  case lbRm rd imm base | lbuRm rd imm base | lhRm rd imm base | lhuRm rd imm base | lwRm rd imm base =>
    exact ⟨rd, base, imm, .read, _, .inr rfl, by simp [Instr.mnemonic], load_halted hs h hk⟩
  case sbRri src base imm | shRri src base imm | swRri src base imm =>
    exact ⟨src, base, imm, .write, _, .inl rfl, by simp [Instr.mnemonic], store_halted hs h hk⟩
  case sbRm src imm base | shRm src imm base | swRm src imm base =>
    exact ⟨src, base, imm, .write, _, .inr rfl, by simp [Instr.mnemonic], store_halted hs h hk⟩
  case sll | srl | sra | slli | srli | srai | add | sub | and | or | xor | addi | slt | sltu =>
    cases h
    simp [hs] at hk
  case andi | ori | xori | slti | sltiu | lui | auipc => cases eq_of_handleFault_halted h hk
  case beq | bne | blt | bge | bltu | bgeu =>
    rw [branchIf_status h, hs] at hk
    cases hk
  case j | jalI1 | jalRi | jalr | ret | nop =>
    cases h
    simp [hs] at hk
  case ebreak | sbreak => exact absurd hk ((debugLaunch_goesOn h).not_halted hs)
  case ecall | scall =>
    obtain rfl | ⟨a, d, m, hfault⟩ := sysHandle_next h
    · simp [s.handedOff_status, hs] at hk
    · cases eq_of_handleFault_halted hfault hk

end Sys2Proof.Machine

namespace Sys2Proof.Machine.Claims

/-- Settles O24: the handlers that write the pc are those of the branches and jumps. -/
theorem onlyControlTransfersMoveThePc : Obligations.OnlyControlTransfersMoveThePc := by
  intro s t i h hi
  cases i
  case beq | bne | blt | bge | bltu | bgeu | j | jalI1 | jalRi | jalr | ret => cases hi
  case lbRri | lbRm | lhRri | lhRm | lwRri | lwRm | lbuRri | lbuRm | lhuRri | lhuRm => exact pc_of_load h
  case sbRri | sbRm | shRri | shRm | swRri | swRm => exact pc_of_store h
  case sll | srl | sra | slli | srli | srai | add | sub | and | or | xor | addi | slt | sltu =>
    cases h
    exact State.setReg_pc ..
  case andi | ori | xori | slti | sltiu | lui | auipc => exact pc_of_handleFault h
  case ecall | scall => exact pc_of_sysHandle h
  case ebreak | sbreak => exact pc_of_debugLaunch h
  case nop => cases h; rfl

theorem Fetches.running {s : State} {w : Diw} (h : Fetches s w) : s.status = .running := by
  obtain ⟨hs, -⟩ := h
  exact hs

/-- A step that ends the run on a fault other than a syscall fault has only counted the cycle before it took the fault and,
if it fetched a word, advanced the pc (R114, R121). -/
theorem step_halted {s t : State} {k : FaultKind} (h : step s = .next t) (hk : t.status = .halted (.fault k))
    (hne : k ≠ .syscallFault) :
    (IMem.lookup s.imem s.pc.toNat = none ∧ ∃ a d m, handleFault a d k m s.countCycle = .next t) ∨
      ∃ w, Fetches s w ∧ ∃ a d m, handleFault a d k m (entered s) = .next t := by
  cases step_next h with
  | start hs ht => rw [ht] at hk; exact absurd hk (runStart_not_faulted s k)
  | exit hs he ht => rw [ht] at hk; cases hk
  | noInstruction hs he hf hfault =>
    obtain rfl := eq_of_handleFault_halted hfault hk
    exact .inl ⟨hf, _, _, _, hfault⟩
  | reject w r hf hd hreject =>
    obtain rfl | ⟨a, d, m, hfault⟩ := rejectDecoded_next_cases hreject
    · cases hk
    · obtain rfl := eq_of_handleFault_halted hfault hk
      exact .inr ⟨w, hf, a, d, m, hfault⟩
  | execute w i hf hd hexec =>
    exact .inr ⟨w, hf, exec_halted (s := entered s) hf.running hexec hk hne⟩

/-- What a fault taken leaves, with no session or one that only inspects (R259). -/
theorem handleFault_precise {s t : State} {a : Word} {d : Option Decoded} {k : FaultKind} {m : FaultMessage}
    (h : handleFault a d k m s = .next t) (hinspect : s.cfg.debugOnFault = false ∨ s.platform.debug = .inspect) :
    (∀ r, t.reg r = s.reg r) ∧ (∀ x, t.byteAt x = s.byteAt x) ∧ t.exit = s.exit ∧ t.exitCode = s.exitCode ∧
      t.cycle = s.cycle ∧ t.pc = s.pc := by
  obtain ⟨-, -, hexit, hcode, hpc, hcycle, -, -, -, hplatform, hsame⟩ := handleFault_next h
  obtain ⟨hregs, hdmem⟩ := hsame hinspect
  exact ⟨State.reg_congr hregs hplatform, State.byteAt_congr hdmem, hexit, hcode, hcycle, hpc⟩

/-- Settles O16: the fault is taken on the state with the cycle counted and, after a fetch, the pc advanced. -/
theorem faultsArePrecise : Obligations.FaultsArePrecise := by
  intro s t k _ hstep hk hne hinspect
  obtain ⟨hf, a, d, m, hfault⟩ | ⟨w, ⟨-, -, hf⟩, a, d, m, hfault⟩ := step_halted hstep hk hne
  · rw [if_pos hf]
    exact handleFault_precise (s := s.countCycle) hfault hinspect
  · rw [if_neg (by simp [hf])]
    exact handleFault_precise (s := entered s) hfault hinspect

/-- Settles O18: a step's memory fault is the fetch's or a handler's, and a handler's is that of its refused access. -/
theorem memoryFaultOnlyWhereRefused : Obligations.MemoryFaultOnlyWhereRefused := by
  intro s t _ hstep hk
  cases step_next hstep with
  | start hs ht => rw [ht] at hk; exact absurd hk (runStart_not_faulted s _)
  | exit hs he ht => rw [ht] at hk; cases hk
  | noInstruction hs he hf hfault => exact .inl hf
  | reject w r hf hd hreject => cases eq_of_rejectDecoded_halted hreject hk
  | execute w i hf hd hexec =>
    obtain ⟨rd, base, imm, k, n, haccess⟩ := accessRefused_of_exec (s := entered s) hf.running hexec hk
    exact .inr ⟨w, i, rd, base, imm, k, n, hf, hd, haccess⟩

end Sys2Proof.Machine.Claims
end

section
/-! The cycle counter and the symbol flag (R28, R31): every operation does the same whatever their values, but for a Debug
Session that may change state, which is shown both. -/

namespace Sys2Proof.Machine

/-- The state with another cycle count and another symbol flag. -/
def State.relabel (c : BitVec 64) (b : Bool) (s : State) : State :=
  { s with cycle := c, cfg := { s.cfg with addSyscallSymbols := b } }

section
variable (c : BitVec 64) (b : Bool)

/-! ### Operations on the state -/

theorem State.relabel_reg (s : State) (r : RegIdx) : (s.relabel c b).reg r = s.reg r := rfl

theorem State.relabel_setReg (s : State) (rd : RegIdx) (v : Word) :
    (s.relabel c b).setReg rd v = (s.setReg rd v).relabel c b := by
  have hzero : (s.relabel c b).isZeroReg rd = s.isZeroReg rd := rfl
  unfold State.setReg
  rw [hzero]
  split <;> rfl

theorem State.relabel_memRead (s : State) (a : Word) (n : Nat) : (s.relabel c b).memRead a n = s.memRead a n := rfl

theorem State.relabel_memWrite (s : State) (a : Word) (n : Nat) (v : BitVec (8 * n)) :
    (s.relabel c b).memWrite a n v = (s.memWrite a n v).map (State.relabel c b) := by
  have hadmits : (s.relabel c b).admits .write a n = s.admits .write a n := rfl
  unfold State.memWrite
  rw [hadmits]
  split <;> rfl

theorem State.relabel_hostByte (s : State) (x : Word × Byte) :
    (s.relabel c b).hostByte x = (s.hostByte x).relabel c b := by
  rw [State.hostByte_eq, State.hostByte_eq]
  rfl

theorem State.relabel_hostWrites (s : State) (w : HostWrites) :
    (s.relabel c b).hostWrites w = (s.hostWrites w).relabel c b := by
  unfold State.hostWrites
  rw [List.foldl_hom (State.relabel c b) fun t x => State.relabel_setReg c b t x.1 x.2,
    List.foldl_hom (State.relabel c b) fun t x => State.relabel_hostByte c b t x]

/-- The Syscall Handler sees neither (log 6), so its hand-off has the same effect. -/
theorem State.relabel_handedOff (s : State) : (s.relabel c b).handedOff = s.handedOff.relabel c b := by
  have hreply : syscallReply (s.relabel c b).syscallNumber (s.relabel c b) = syscallReply s.syscallNumber s := rfl
  have hwrites := State.relabel_hostWrites c b (s.emit (.syscallIssued s.syscallNumber)).countHandoff
    (syscallReply s.syscallNumber s).writes
  unfold State.handedOff State.syscallEffect
  rw [hreply]
  exact congrArg (fun t : State => { t with
    exit := t.exit || (syscallReply s.syscallNumber s).setsExit
    exitCode := (syscallReply s.syscallNumber s).exitCode.getD t.exitCode }) hwrites

end

end Sys2Proof.Machine

namespace Sys2Proof.Machine.Claims

/-! ### The syscall hand-off, case by case (R235) -/

theorem sysHandle_of_blocked {s : State} (i : Instr) (hb : s.blocked = true) :
    sysHandle i s = .fault .collaboratorNeverReturns := by
  simp [sysHandle, hb]

theorem sysHandle_of_reply {s : State} (i : Instr) (hb : s.blocked = false)
    (hreply : (syscallReply s.syscallNumber s).failure = none) : sysHandle i s = .next s.handedOff := by
  simp [sysHandle, hb, hreply, State.handedOff]

theorem sysHandle_of_raise {s : State} {text : SyscallText} (i : Instr) (hb : s.blocked = false)
    (hreply : (syscallReply s.syscallNumber s).failure = some text) :
    sysHandle i s = raise i .syscallFault (.syscall text) s.handedOff := by
  simp [sysHandle, hb, hreply, State.handedOff]

section
variable (c : BitVec 64) (b : Bool)

/-! ### Hand-offs and faults -/

theorem debugLaunch_relabel (r : DebugReason) {s : State} (h : s.platform.debug = .inspect) :
    debugLaunch r (s.relabel c b) = mapNext (State.relabel c b) (debugLaunch r s) := by
  have hblocked : (s.relabel c b).blocked = s.blocked := rfl
  unfold debugLaunch
  rw [hblocked]
  split
  · rfl
  · rw [State.debugEffect_inspect (s := (s.relabel c b).emit _) h, State.debugEffect_inspect (s := s.emit _) h]
    rfl

theorem handleFault_relabel (a : Word) (d : Option Decoded) (k : FaultKind) (m : FaultMessage) {s : State}
    (h : s.platform.debug = .inspect ∨ s.cfg.debugOnFault = false) :
    handleFault a d k m (s.relabel c b) = mapNext (State.relabel c b) (handleFault a d k m s) := by
  have hflag : (s.relabel c b).cfg.debugOnFault = s.cfg.debugOnFault := rfl
  unfold handleFault
  rw [hflag]
  cases hon : s.cfg.debugOnFault with
  | false => rfl
  | true =>
    have hinspect : s.platform.debug = .inspect := h.resolve_right (by simp [hon])
    have hlaunch := debugLaunch_relabel c b .fault (s := s.emit (.faultReport a d k m)) hinspect
    have hemit : (s.relabel c b).emit (.faultReport a d k m) = (s.emit (.faultReport a d k m)).relabel c b := rfl
    rw [hemit, hlaunch]
    cases debugLaunch .fault (s.emit (.faultReport a d k m)) <;> rfl

theorem raise_relabel (i : Instr) (k : FaultKind) (m : FaultMessage) {s : State}
    (h : s.platform.debug = .inspect ∨ s.cfg.debugOnFault = false) :
    raise i k m (s.relabel c b) = mapNext (State.relabel c b) (raise i k m s) :=
  handleFault_relabel c b _ _ _ _ h

theorem sysHandle_relabel (i : Instr) {s : State} (h : s.platform.debug = .inspect ∨ s.cfg.debugOnFault = false) :
    sysHandle i (s.relabel c b) = mapNext (State.relabel c b) (sysHandle i s) := by
  have hkeeps := s.handedOff_keeps
  have hfault : s.handedOff.platform.debug = .inspect ∨ s.handedOff.cfg.debugOnFault = false := by
    rwa [hkeeps.platform, hkeeps.cfg]
  obtain ⟨hb, hstop⟩ | ⟨hb, hnone, hgo⟩ | ⟨text, hb, hsome, hraise⟩ := sysHandle_cases i s
  · rw [hstop]
    exact sysHandle_of_blocked i hb
  · rw [hgo, sysHandle_of_reply (s := s.relabel c b) i hb hnone, State.relabel_handedOff]
    rfl
  · rw [hraise, sysHandle_of_raise (s := s.relabel c b) i hb hsome, State.relabel_handedOff]
    exact raise_relabel c b i _ _ hfault

/-! ### Handlers -/

theorem load_relabel (i : Instr) (n : Nat) (extend : BitVec (8 * n) → Word) (rd base : RegIdx) (imm : Word) {s : State}
    (h : s.platform.debug = .inspect ∨ s.cfg.debugOnFault = false) :
    load i n extend rd base imm (s.relabel c b) = mapNext (State.relabel c b) (load i n extend rd base imm s) := by
  have hea : (s.relabel c b).effectiveAddress base imm = s.effectiveAddress base imm := rfl
  unfold load
  rw [hea, State.relabel_memRead]
  cases s.memRead (s.effectiveAddress base imm) n with
  | none => exact raise_relabel c b i _ _ h
  | some v => exact congrArg Host.Outcome.next (State.relabel_setReg c b s rd _)

theorem store_relabel (i : Instr) (n : Nat) (src base : RegIdx) (imm : Word) {s : State}
    (h : s.platform.debug = .inspect ∨ s.cfg.debugOnFault = false) :
    store i n src base imm (s.relabel c b) = mapNext (State.relabel c b) (store i n src base imm s) := by
  have hea : (s.relabel c b).effectiveAddress base imm = s.effectiveAddress base imm := rfl
  unfold store
  rw [hea, State.relabel_reg, State.relabel_memWrite]
  cases s.memWrite (s.effectiveAddress base imm) n ((s.reg src).setWidth (8 * n)) with
  | none => exact raise_relabel c b i _ _ h
  | some t => rfl

theorem writeResult_relabel (rd : RegIdx) (v : Word) (s : State) :
    writeResult rd v (s.relabel c b) = mapNext (State.relabel c b) (writeResult rd v s) :=
  congrArg Host.Outcome.next (State.relabel_setReg c b s rd v)

theorem branchIf_relabel (cond : Bool) (target : Word) (s : State) :
    branchIf cond target (s.relabel c b) = mapNext (State.relabel c b) (branchIf cond target s) := by
  cases cond <;> rfl

theorem linkAndJump_relabel (rd : RegIdx) (target : Word) (s : State) :
    linkAndJump rd target (s.relabel c b) = mapNext (State.relabel c b) (linkAndJump rd target s) :=
  congrArg (fun t : State => Host.Outcome.next (t.setPc target)) (State.relabel_setReg c b s rd s.pc)

end

/-- Settles O21: each handler is an operation that neither value enters; the Debug Session is launched by `ebreak`, `sbreak`
and, with `cfg.debug_on_fault`, a fault. -/
theorem noInstructionReadsCycleOrSymbols : Obligations.NoInstructionReadsCycleOrSymbols := by
  intro s i c b hsession
  have hfault : s.platform.debug = .inspect ∨ s.cfg.debugOnFault = false := hsession.imp_right And.right
  show exec i (s.relabel c b) = mapNext (State.relabel c b) (exec i s)
  cases i
  case lbRri | lbRm | lhRri | lhRm | lwRri | lwRm | lbuRri | lbuRm | lhuRri | lhuRm => exact load_relabel c b _ _ _ _ _ _ hfault
  case sbRri | sbRm | shRri | shRm | swRri | swRm => exact store_relabel c b _ _ _ _ _ hfault
  case sll | srl | sra | slli | srli | srai | add | sub | and | or | xor | addi | slt | sltu =>
    exact writeResult_relabel c b _ _ s
  case andi | ori | xori | slti | sltiu | lui | auipc => exact raise_relabel c b _ _ _ hfault
  case beq | bne | blt | bge | bltu | bgeu => exact branchIf_relabel c b _ _ s
  case jalI1 | jalRi | jalr => exact linkAndJump_relabel c b _ _ s
  case j | ret | nop => rfl
  case ecall | scall => exact sysHandle_relabel c b _ hfault
  case ebreak | sbreak => exact debugLaunch_relabel c b _ (hsession.resolve_right (by simp [callsDebugger, Instr.mnemonic]))

end Sys2Proof.Machine.Claims
end

section
/-! Reads: the bytes of a value assembled again, in either byte order (R52, R54); and what a memory admits (R55 to R61). -/

namespace Sys2Proof.Machine

/-! ### The value of bytes (R54) -/

theorem fromBytes_append_singleton (bs : List Byte) (b : Byte) :
    fromBytes (bs ++ [b]) = fromBytes bs + 256 ^ bs.length * b.toNat := by
  induction bs with
  | nil => simp [fromBytes]
  | cons x bs ih =>
    simp only [List.cons_append, fromBytes, ih, List.length_cons, pow_succ]
    ring

/-- The low `n` bytes of a word have its value modulo `256 ^ n`. -/
theorem fromBytes_map_extract {w : Nat} (v : BitVec w) (n : Nat) :
    fromBytes ((List.range n).map fun k => v.extractLsb' (8 * k) 8) = v.toNat % 256 ^ n := by
  induction n with
  | zero => simp [fromBytes, Nat.mod_one]
  | succ n ih =>
    have hbyte : (v.extractLsb' (8 * n) 8).toNat = v.toNat / 256 ^ n % 256 := by
      rw [BitVec.extractLsb'_toNat, Nat.shiftRight_eq_div_pow, Nat.pow_mul]
    rw [List.range_succ, List.map_append, List.map_singleton, fromBytes_append_singleton, ih, hbyte, List.length_map,
      List.length_range, pow_succ, Nat.mod_mul]

theorem fromBytes_toBytes (n : Nat) (v : BitVec (8 * n)) : fromBytes (toBytes n v) = v.toNat := by
  have hlt : v.toNat < 256 ^ n := by
    have hv := v.isLt
    rwa [Nat.pow_mul] at hv
  rw [toBytes, fromBytes_map_extract, Nat.mod_eq_of_lt hlt]

theorem inOrder_inOrder (e : Endian) (bs : List Byte) : inOrder e (inOrder e bs) = bs := by
  cases e with
  | little => rfl
  | big => exact List.reverse_reverse bs

/-- After a write transaction the bytes there are those of the value, in the byte order of the platform (R53, R54). -/
theorem State.memWrite_bytesAt {s t : State} {a : Word} {n : Nat} {v : BitVec (8 * n)} (h : s.memWrite a n v = some t)
    (hn : n ≤ 4) (hw : Memory.wf s.dmem = true) : t.bytesAt a n = inOrder s.platform.endian (toBytes n v) := by
  refine List.ext_getElem (by simp [State.bytesAt, inOrder_length]) fun k hk _ => ?_
  have hkn : k < n := by simpa [State.bytesAt] using hk
  have hget : (t.bytesAt a n)[k] = t.byteAt (byteAddr a k) := by
    simp only [State.bytesAt, List.getElem_map, List.getElem_range]
  exact hget.trans ((State.memWrite_byteAt h hn hw hkn).trans (inOrder_get _ _ _ _ hkn).symm)

/-- An admitted read gives the value of its bytes (R52). -/
theorem State.memRead_of_admits {s : State} {a : Word} {n : Nat} (h : s.admits .read a n = true) :
    s.memRead a n = some (BitVec.ofNat (8 * n) (fromBytes (inOrder s.platform.endian (s.bytesAt a n)))) :=
  if_pos h

theorem State.memRead_memWrite {s t : State} {a : Word} {n : Nat} {v : BitVec (8 * n)} (h : s.memWrite a n v = some t)
    (hn : n ≤ 4) (hw : Memory.wf s.dmem = true) (hread : t.admits .read a n = true) : t.memRead a n = some v := by
  have hplatform : t.platform = s.platform := by
    obtain ⟨-, rfl⟩ := State.memWrite_some h
    rfl
  rw [State.memRead_of_admits hread, State.memWrite_bytesAt h hn hw, hplatform, inOrder_inOrder, fromBytes_toBytes,
    BitVec.ofNat_toNat, BitVec.setWidth_eq]

/-! ### Bytes as words (R54, D8) -/

theorem toNat_append_eq {n k : Nat} (x : BitVec n) (y : BitVec k) : (x ++ y).toNat = x.toNat * 2 ^ k + y.toNat := by
  rw [BitVec.toNat_append, ← Nat.shiftLeft_add_eq_or_of_lt y.isLt, Nat.shiftLeft_eq]

theorem ofNat_fromBytes_one (b : Byte) : BitVec.ofNat 8 (fromBytes [b]) = b := by
  simp [fromBytes]

theorem ofNat_fromBytes_two (b0 b1 : Byte) : BitVec.ofNat 16 (fromBytes [b0, b1]) = b1 ++ b0 := by
  apply BitVec.eq_of_toNat_eq
  have h0 := b0.isLt
  have h1 := b1.isLt
  simp only [toNat_append_eq, BitVec.toNat_ofNat, fromBytes]
  omega

theorem ofNat_fromBytes_four (b0 b1 b2 b3 : Byte) :
    BitVec.ofNat 32 (fromBytes [b0, b1, b2, b3]) = b3 ++ b2 ++ b1 ++ b0 := by
  apply BitVec.eq_of_toNat_eq
  have h0 := b0.isLt
  have h1 := b1.isLt
  have h2 := b2.isLt
  have h3 := b3.isLt
  simp only [toNat_append_eq, BitVec.toNat_ofNat, fromBytes]
  omega

theorem State.bytesAt_one (s : State) (a : Word) : s.bytesAt a 1 = [s.byteAt a] := by
  simp [State.bytesAt, byteAddr]

theorem State.bytesAt_two (s : State) (a : Word) : s.bytesAt a 2 = [s.byteAt a, s.byteAt (a + 1)] := by
  simp [State.bytesAt, byteAddr, List.range_succ]

theorem State.bytesAt_four (s : State) (a : Word) :
    s.bytesAt a 4 = [s.byteAt a, s.byteAt (a + 1), s.byteAt (a + 2), s.byteAt (a + 3)] := by
  simp [State.bytesAt, byteAddr, List.range_succ]

/-! ### The verdict (R55, R58 to R61) -/

/-- The reference platform's regions grant a byte of either kind exactly in their one range (R61). -/
theorem grants_reference {p : Platform} (h : p.dspace = ({} : Platform).dspace) (k : Access) (a : Nat) :
    grants p k a = true ↔ 0x10000 ≤ a ∧ a < 0x10000 + 0x10000 := by
  cases k <;> simp [grants, h, regionHas]

/-- Some bytes in a row lie in a range that does not wrap exactly where the first and the last do. -/
theorem all_byteAddr_mem_range_iff {a : Word} {n : Nat} (hn : 0 < n) (hn4 : n ≤ 4) :
    (∀ j < n, 0x10000 ≤ (byteAddr a j).toNat ∧ (byteAddr a j).toNat < 0x10000 + 0x10000) ↔
      0x10000 ≤ a.toNat ∧ a.toNat + n ≤ 0x10000 + 0x10000 := by
  have haddr : ∀ j < n, (byteAddr a j).toNat = (a.toNat + j) % 2 ^ 32 := by
    intro j hj
    rw [byteAddr, BitVec.toNat_add, BitVec.toNat_ofNat, Nat.mod_eq_of_lt (a := j) (by omega)]
  constructor
  · intro h
    have hfirst := h 0 hn
    have hlast := h (n - 1) (by omega)
    rw [haddr _ (by omega)] at hfirst hlast
    omega
  · intro h j hj
    rw [haddr j hj]
    omega

theorem alignedFor_eq_decide (p : Platform) (a : Word) (n : Nat) :
    alignedFor p a n = decide (p.misaligned = .bytewise ∨ a.toNat % n = 0) := by
  rw [Bool.eq_iff_iff, alignedFor_iff, decide_eq_true_iff]

end Sys2Proof.Machine

namespace Sys2Proof.Machine.Claims

theorem width_le_four {n : Nat} (h : n ∈ [1, 2, 4]) : 0 < n ∧ n ≤ 4 := by
  simp only [List.mem_cons, List.not_mem_nil, or_false] at h
  omega

/-- Settles O27: the write puts the value's bytes in order, and the read assembles them in the same order. -/
theorem readAfterWriteGivesTheValue : Obligations.ReadAfterWriteGivesTheValue := by
  intro s t a n v hn hw hwrite hread
  obtain ⟨-, hn4⟩ := width_le_four hn
  exact State.memRead_memWrite hwrite hn4 hw hread

/-- Settles O28: the value of the bytes is their concatenation, the least significant last. -/
theorem readsAssembleBytesInOrder : Obligations.ReadsAssembleBytesInOrder := by
  intro s a
  refine ⟨fun h => ?_, fun h => ?_, fun h => ?_⟩
  · rw [State.memRead_of_admits h, State.bytesAt_one]
    cases s.platform.endian with
    | little => exact congrArg some (ofNat_fromBytes_one _)
    | big => exact congrArg some (ofNat_fromBytes_one _)
  · rw [State.memRead_of_admits h, State.bytesAt_two]
    cases s.platform.endian with
    | little => exact congrArg some (ofNat_fromBytes_two _ _)
    | big => exact congrArg some (ofNat_fromBytes_two _ _)
  · rw [State.memRead_of_admits h, State.bytesAt_four]
    cases s.platform.endian with
    | little => exact congrArg some (ofNat_fromBytes_four _ _ _ _)
    | big => exact congrArg some (ofNat_fromBytes_four _ _ _ _)

/-- Settles O29: every byte of the access lies in the one region. -/
theorem referencePlatformAdmits : Obligations.ReferencePlatformAdmits := by
  intro s k a n hn hregions hdspace
  obtain ⟨hpos, hn4⟩ := width_le_four hn
  simp only [State.admits_regions hregions, Bool.and_eq_true, alignedFor_iff, List.all_eq_true, List.mem_range,
    grants_reference hdspace, all_byteAddr_mem_range_iff hpos hn4]
  rw [and_comm, and_assoc]

/-- Settles O30: the sum modulo 2^32, and the signed reading differs from the unsigned one by a multiple of it. -/
theorem effectiveAddressWraps : Obligations.EffectiveAddressWraps := by
  intro s b i
  have hsum : (s.effectiveAddress b i).toNat = ((s.reg b).toNat + i.toNat) % 2 ^ 32 := by
    rw [State.effectiveAddress_eq, BitVec.toNat_add]
  refine ⟨hsum, ?_⟩
  rw [hsum, BitVec.toInt_eq_toNat_cond]
  split <;> omega

/-- Settles O60: a transaction is done where it is admitted, and the verdict is the alignment test and the memory's. -/
theorem theVerdictIsTheMemorys : Obligations.TheVerdictIsTheMemorys := by
  intro s a n _ hhost
  refine ⟨?_, fun v => ?_⟩
  · rw [State.memRead_isSome, State.admits_host hhost, alignedFor_eq_decide]
  · rw [State.memWrite_isSome, State.admits_host hhost, alignedFor_eq_decide]

/-- The width of a word is four bytes, so that the extension of `lw` changes nothing (R143). -/
theorem setWidth_fourBytes : (fun v : BitVec (8 * 4) => v.setWidth 32) = fun v => v :=
  funext BitVec.setWidth_eq

/-- Settles O33: both forms run `load` with the word unchanged. -/
theorem wordLoadsKeepTheWord : Obligations.WordLoadsKeepTheWord :=
  loadRule_of_exec ⟨rfl, fun _ _ _ => rfl, fun _ _ _ => rfl⟩
    (fun rd base imm s => congrArg (fun f => load (.lwRri rd base imm) 4 f rd base imm s) setWidth_fourBytes)
    (fun rd base imm s => congrArg (fun f => load (.lwRm rd imm base) 4 f rd base imm s) setWidth_fourBytes)

end Sys2Proof.Machine.Claims
end

section
/-! The left shifts, subtraction, the bitwise and the compare instructions, `jalr`, `nop`, and a `jal` with its `ret`. -/

namespace Sys2Proof.Machine

theorem word_sub_toNat (a b : Word) :
    ((word (unsigned a - unsigned b)).toNat : Int) = ((a.toNat : Int) - b.toNat) % 2 ^ 32 := by
  rw [word_toNat, Int.toNat_of_nonneg (Int.emod_nonneg _ (by decide))]
  rfl

theorem truthWord_condLt (a b : Word) : truthWord (condLt a b) = if a.toInt < b.toInt then 1 else 0 := by
  simp only [truthWord, condLt_iff]

theorem truthWord_condLtu (a b : Word) : truthWord (condLtu a b) = if a.toNat < b.toNat then 1 else 0 := by
  simp only [truthWord, condLtu_iff]

end Sys2Proof.Machine

namespace Sys2Proof.Machine.Claims

/-- Settles O35: both mnemonics write the left shifter's result, the product modulo 2^32. -/
theorem leftShiftsFillWithZeros : Obligations.LeftShiftsFillWithZeros :=
  ⟨r3Rule_of_exec (op := fun a b => shiftLeft a (b.toNat % 32)) rfl exec_sll fun _ _ => shiftLeft_toNat _ _,
    rriRule_of_exec (op := fun a b => shiftLeft a (b.toNat % 32)) rfl exec_slli fun _ _ => shiftLeft_toNat _ _⟩

/-- Settles O40: `sub` writes the word of the difference. -/
theorem subtractionWraps : Obligations.SubtractionWraps :=
  r3Rule_of_exec (op := fun a b => word (unsigned a - unsigned b)) rfl (fun _ _ _ _ => rfl) word_sub_toNat

/-- Settles O41: the three write the word operation, whose bits are the operation of the bits. -/
theorem logicIsBitwise : Obligations.LogicIsBitwise :=
  ⟨r3Rule_of_exec rfl (fun _ _ _ _ => rfl) fun _ _ _ _ => BitVec.getLsbD_and,
    r3Rule_of_exec rfl (fun _ _ _ _ => rfl) fun _ _ _ _ => BitVec.getLsbD_or,
    r3Rule_of_exec rfl (fun _ _ _ _ => rfl) fun _ _ _ _ => BitVec.getLsbD_xor⟩

/-- Settles O42: both mnemonics write the truth word of their comparison. -/
theorem setLessThanWritesOneOrZero : Obligations.SetLessThanWritesOneOrZero :=
  ⟨r3Rule_of_exec rfl (fun _ _ _ _ => rfl) truthWord_condLt, r3Rule_of_exec rfl (fun _ _ _ _ => rfl) truthWord_condLtu⟩

/-- Settles O49: the one form links and jumps. -/
theorem jalrLinksTheAdvancedPc : Obligations.JalrLinksTheAdvancedPc :=
  ⟨handlerOf_of_forms rfl, fun s rd target => linkAndJump_links rd target s⟩

/-- Settles O51: its handler answers the state it was entered with. -/
theorem nopChangesNothing : Obligations.NopChangesNothing :=
  ⟨handlerOf_of_forms rfl, fun _ => rfl⟩

/-- Where only registers, the pc and D-space have changed, the run is in its loop as before, with the same instructions. -/
theorem SameRest.fetches {s t : State} {w v : Diw} (h : SameRest (entered s) t) (hf : Fetches s w)
    (hv : IMem.lookup s.imem t.pc.toNat = some v) : Fetches t v := by
  obtain ⟨hs, he, -⟩ := hf
  obtain ⟨-, hexit, -, -, hstatus, -, himem, -⟩ := h
  exact ⟨hstatus.trans hs, hexit.trans he, by rw [himem]; exact hv⟩

/-- Settles O50: what `jal` links on the entered state is what the `ret` of the next step reads. -/
theorem returnAfterJalResumesAfterIt : Obligations.ReturnAfterJalResumesAfterIt := by
  intro s w v target hf hw htarget hv hra
  obtain ⟨t, hjal, hlinks⟩ := linkAndJump_links s.platform.regRa target (entered s)
  obtain ⟨u, hret, hback⟩ := Links.exec_ret (s := entered s) hlinks hra
  cases hret
  obtain ⟨hpc, -, -, -, hrest⟩ := hlinks
  have hfetches : Fetches t v := hrest.fetches hf (by rw [hpc]; exact htarget)
  exact ⟨t, _, (step_of_decode_ok hf hw).trans hjal, hpc, step_of_decode_ok hfetches hv, hback⟩

end Sys2Proof.Machine.Claims
end

section
/-! The collaborators (R235 to R239): what their writes leave, what the hand-offs do, and what each collaborator sees. -/

namespace Sys2Proof.Machine.Claims

/-! ### What a collaborator writes (R236) -/

theorem hostWrites_wrote (w : HostWrites) (s : State) : Wrote w s (s.hostWrites w) := by
  obtain ⟨regs, bytes⟩ := w
  refine ⟨fun before after r v hregs hafter => ?_, State.hostWrites_reg s _, fun before after a v hbytes hafter hm hw => ?_,
    fun a ha => ?_⟩
  · obtain rfl : regs = _ := hregs
    exact State.hostWrites_reg_last s before after r v bytes hafter
  · obtain rfl : bytes = _ := hbytes
    exact State.hostWrites_byteAt_last s regs before after a v hafter hm hw
  · exact ha.elim (State.hostWrites_byteAt s _ a) (State.hostWrites_byteAt_unmapped s _ a)

/-- What was written rests on the registers, D-space and the parameters alone. -/
theorem Wrote.congr {w : HostWrites} {s s' t t' : State} (h : Wrote w s t) (hregs : s'.regs = s.regs)
    (hdmem : s'.dmem = s.dmem) (hplatform : s'.platform = s.platform) (hregs' : t'.regs = t.regs)
    (hdmem' : t'.dmem = t.dmem) (hplatform' : t'.platform = t.platform) : Wrote w s' t' := by
  simp only [Wrote, State.reg_congr hregs hplatform, State.byteAt_congr hdmem, State.reg_congr hregs' hplatform',
    State.byteAt_congr hdmem', hplatform, hdmem]
  exact h

/-- Whatever a reply is, it makes of a state what it says and nothing else (R236). -/
theorem syscallEffect_replied (number : Word) (r : HostReply) (s : State) :
    Replied number r s ((s.emit (.syscallIssued number)).syscallEffect r) := by
  obtain ⟨htrace, hstatus, hpc, hcycle, hcfg, himem, hloaded, hplatform, hexit, hcode⟩ :=
    State.syscallEffect_keeps (s.emit (.syscallIssued number)) r
  have hwrote : Wrote r.writes s ((s.emit (.syscallIssued number)).syscallEffect r) :=
    (hostWrites_wrote r.writes (s.emit (.syscallIssued number)).countHandoff).congr rfl rfl rfl rfl rfl rfl
  exact ⟨htrace, hexit, hcode, hwrote, hstatus, hpc, hcycle, hcfg, himem, hloaded, hplatform⟩

/-! ### The debug hand-off (R237, R238) -/

theorem Returns.debugLaunch_eq {s : State} (h : Returns s) (r : DebugReason) :
    debugLaunch r s = .next (s.emit (.debugLaunched r s.pc)).debugEffect := by
  simp [debugLaunch, h.not_blocked]

theorem debugEffect_wrote {s : State} (h : s.platform.debug = .mayChange) :
    Wrote (Config.debugWrites s.hostCalls s.debugView) s s.debugEffect := by
  have heffect : s.debugEffect = s.countHandoff.hostWrites (Config.debugWrites s.hostCalls s.debugView) := by
    simp only [State.debugEffect, h]
  rw [heffect]
  exact (hostWrites_wrote _ s.countHandoff).congr rfl rfl rfl rfl rfl rfl

/-- A launched session that may change state writes what it writes on seeing the state before the launch (log 9). -/
theorem launched_wrote {s : State} (r : DebugReason) (h : s.platform.debug = .mayChange) :
    Wrote (Config.debugWrites s.hostCalls s.debugView) s (s.emit (.debugLaunched r s.pc)).debugEffect :=
  (debugEffect_wrote (s := s.emit (.debugLaunched r s.pc)) h).congr rfl rfl rfl rfl rfl rfl

/-- Settles O52: both mnemonics launch the session, and what a launch leaves is the report and the session's effect. -/
theorem breakpointsLaunchTheDebugger : Obligations.BreakpointsLaunchTheDebugger := by
  refine ⟨handlerOf_of_forms rfl, handlerOf_of_forms rfl, fun s hreturns => ?_⟩
  have hlaunch := hreturns.debugLaunch_eq .breakpoint
  obtain ⟨htrace, hcode, hstatus, hpc, hcycle, hexit, hcfg, himem, hloaded, hplatform⟩ :=
    State.debugEffect_keeps (s.emit (.debugLaunched .breakpoint s.pc))
  refine ⟨_, hlaunch, hlaunch, htrace, hstatus, hpc, hcycle, hexit, hcode, hcfg, himem, hloaded, hplatform, ?_,
    launched_wrote .breakpoint⟩
  intro hinspect
  rw [State.debugEffect_inspect (s := s.emit (.debugLaunched .breakpoint s.pc)) hinspect]
  exact ⟨fun _ => rfl, fun _ => rfl⟩

/-! ### The syscall hand-off (R235, R236) -/

/-- Where every collaborator returns the syscall hand-off answers a next state, the handler's effect if it raises nothing
and a halt on the syscall fault if it does (R235, R254). -/
theorem Returns.sysHandle_cases {s : State} (h : Returns s) (i : Instr) :
    ((syscallReply s.syscallNumber s).failure = none ∧ sysHandle i s = .next s.handedOff) ∨
      ((syscallReply s.syscallNumber s).failure ≠ none ∧
        ∃ t, sysHandle i s = .next t ∧ t.status = .halted (.fault .syscallFault) ∧ t.exit = s.handedOff.exit ∧
          t.exitCode = s.handedOff.exitCode) := by
  cases hreply : (syscallReply s.syscallNumber s).failure with
  | none => exact .inl ⟨rfl, sysHandle_of_reply i h.not_blocked hreply⟩
  | some text =>
    have hreturns : Returns s.handedOff := by rwa [Returns, s.handedOff_platform]
    obtain ⟨t, hnext⟩ := hreturns.exists_handleFault s.handedOff.instrAddr (some i.decoded) .syscallFault (.syscall text)
    obtain ⟨hstatus, -, hexit, hcode, -⟩ := handleFault_next hnext
    exact .inr ⟨by simp, t, (sysHandle_of_raise i h.not_blocked hreply).trans hnext, hstatus, hexit, hcode⟩

theorem Returns.exists_sysHandle {s : State} (h : Returns s) (i : Instr) : ∃ t, sysHandle i s = .next t := by
  obtain ⟨-, hnext⟩ | ⟨-, t, hnext, -⟩ := h.sysHandle_cases i
  · exact ⟨_, hnext⟩
  · exact ⟨t, hnext⟩

/-- Settles O53: both mnemonics hand over alike, and where the handler raises nothing its effect is the next state. -/
theorem syscallsHandOff : Obligations.SyscallsHandOff := by
  refine ⟨handlerOf_of_forms rfl, handlerOf_of_forms rfl, fun s hreturns => ?_, fun s number r =>
    syscallEffect_replied number r s⟩
  obtain ⟨t, ht⟩ := hreturns.exists_sysHandle .ecall
  obtain ⟨u, hu⟩ := hreturns.exists_sysHandle .scall
  refine ⟨t, u, ht, hu, fun hreply => ?_⟩
  have hgo (i : Instr) : sysHandle i s = .next s.handedOff := sysHandle_of_reply i hreturns.not_blocked hreply
  obtain rfl : s.handedOff = t := next_inj.mp ((hgo _).symm.trans ht)
  obtain rfl : s.handedOff = u := next_inj.mp ((hgo _).symm.trans hu)
  exact ⟨rfl, rfl, syscallEffect_replied _ _ s⟩

/-- A step that fetches `ecall` or `scall` is the syscall hand-off on the entered state (R240, R241). -/
theorem step_of_syscall {s : State} {w : Diw} (hf : Fetches s w) (hd : decode w = .ok .ecall ∨ decode w = .ok .scall) :
    ∃ i, step s = sysHandle i (entered s) := by
  obtain hd | hd := hd
  · exact ⟨.ecall, step_of_decode_ok hf hd⟩
  · exact ⟨.scall, step_of_decode_ok hf hd⟩

/-- A step that fetches `ebreak` or `sbreak` is the debug hand-off on the entered state (R242, R243). -/
theorem step_of_breakpoint {s : State} {w : Diw} (hf : Fetches s w)
    (hd : decode w = .ok .ebreak ∨ decode w = .ok .sbreak) : step s = debugLaunch .breakpoint (entered s) :=
  hd.elim (step_of_decode_ok hf) (step_of_decode_ok hf)

/-- Settles O59: the views handed over are those of the entered state. -/
theorem handOffsShowTheAdvancedPc : Obligations.HandOffsShowTheAdvancedPc := by
  constructor
  · intro s w hf hd hreturns hhost
    obtain ⟨i, hstep⟩ := step_of_syscall hf hd
    have hreply : syscallReply (entered s).syscallNumber (entered s) =
        Config.syscallReply s.hostCalls (s.reg s.platform.regSysno) (entered s).syscallView := by
      have hhost' : (entered s).platform.syscall = .host := hhost
      simp only [syscallReply, hhost']
      rfl
    have hentered : Returns (entered s) := hreturns
    refine ⟨(entered s).syscallView, ?_⟩
    rw [← hreply, hstep]
    obtain ⟨hnone, hnext⟩ | ⟨hraises, t, hnext, hstatus, -⟩ := hentered.sysHandle_cases i
    · refine ⟨_, State.regFile_get _, rfl, rfl, rfl, rfl, rfl, hnext, ?_⟩
      rw [hnone]
      exact syscallEffect_replied _ _ (entered s)
    · refine ⟨t, State.regFile_get _, rfl, rfl, rfl, rfl, rfl, hnext, ?_⟩
      split
      · next hnone => exact absurd hnone hraises
      · exact hstatus
  · intro s w hf hd hreturns hmay
    have hentered : Returns (entered s) := hreturns
    refine ⟨(entered s).debugView, _, State.regFile_get _, rfl, rfl, rfl, rfl, rfl, rfl,
      (step_of_breakpoint hf hd).trans (hentered.debugLaunch_eq .breakpoint), ?_⟩
    exact launched_wrote (s := entered s) .breakpoint hmay

end Sys2Proof.Machine.Claims
end

section
/-! The reference Syscall Handler (R239), and run start (R123, R286). -/

namespace Sys2Proof.Machine

/-- The reference handler's exit call sets the flag and the code, and writes nothing (R239). -/
theorem syscallReply_exitCall {s : State} (h : s.platform.syscall = .reference) (hn : s.syscallNumber = 93) :
    syscallReply s.syscallNumber s = ⟨⟨[], []⟩, true, some (s.reg s.platform.regArg0), none⟩ := by
  simp only [syscallReply, h, referenceReply]
  exact if_pos hn

/-- On any other number the reference handler only raises its fault (R239). -/
theorem syscallReply_otherCall {s : State} (h : s.platform.syscall = .reference) (hn : s.syscallNumber ≠ 93) :
    syscallReply s.syscallNumber s = ⟨⟨[], []⟩, false, none, some .unknownSyscall⟩ := by
  simp only [syscallReply, h, referenceReply]
  exact if_neg hn

end Sys2Proof.Machine

namespace Sys2Proof.Machine.Claims

/-- A collaborator that writes nothing leaves every register and every byte. -/
theorem Wrote.same_of_nil {s t : State} (h : Wrote ⟨[], []⟩ s t) :
    (∀ r, t.reg r = s.reg r) ∧ ∀ a, t.byteAt a = s.byteAt a := by
  obtain ⟨-, hregs, -, hbytes⟩ := h
  exact ⟨fun r => hregs r (by simp), fun a => hbytes a (.inl (by simp))⟩

/-- What the hand-off makes of the state is what the handler's reply says (R236). -/
theorem handedOff_replied (s : State) : Replied s.syscallNumber (syscallReply s.syscallNumber s) s s.handedOff :=
  syscallEffect_replied _ _ s

/-- Settles O55: the exit call's effect is the next state, whose exit flag ends the run at once; any other number's reply
sets nothing and raises. -/
theorem referenceExitCallEndsTheRun : Obligations.ReferenceExitCallEndsTheRun := by
  intro s w hf hd hreturns href
  have hentered : Returns (entered s) := hreturns
  obtain ⟨i, hstep⟩ := step_of_syscall hf hd
  obtain ⟨htrace, hexit, hcode, hwrote, hstatus, hpc, hcycle, hcfg, himem, hloaded, hplatform⟩ :=
    handedOff_replied (entered s)
  obtain ⟨hs, he, -⟩ := hf
  constructor
  · intro hn
    have hreply := syscallReply_exitCall (s := entered s) href hn
    have hnumber : (entered s).syscallNumber = 93 := hn
    rw [hreply] at hexit hcode hwrote
    rw [hnumber] at htrace
    obtain ⟨hregs, hbytes⟩ := hwrote.same_of_nil
    have hrunning : (entered s).handedOff.status = .running := hstatus.trans hs
    have hset : (entered s).handedOff.exit = true := by rw [hexit, Bool.or_true]
    refine ⟨_, _, hstep.trans (sysHandle_of_reply i hentered.not_blocked (by rw [hreply])),
      exitFlagEndsTheRun _ hrunning hset, hrunning, hset, hcode, hpc, hcycle, hregs, hbytes, htrace, hcfg, himem, hloaded,
      hplatform, rfl, hcode, hcycle, ?_⟩
    show (entered s).handedOff.trace ++ [.exitReport (entered s).handedOff.exitCode] = _
    rw [htrace, hcode, List.append_assoc]
    rfl
  · intro hn
    have hreply := syscallReply_otherCall (s := entered s) href hn
    obtain ⟨hnone, -⟩ | ⟨-, t, hnext, hhalted, htexit, htcode⟩ := hentered.sysHandle_cases i
    · rw [hreply] at hnone
      cases hnone
    · rw [hreply] at hexit hcode
      exact ⟨t, hstep.trans hnext, hhalted, by rw [htexit, hexit, Bool.or_false]; exact he, htcode.trans hcode⟩

/-! ### Run start -/

theorem step_of_idle {s : State} (h : s.status = .idle) : step s = .next (runStart s) := by
  simp [step, h]

/-- Run start writes no register but those of the seeding (R286). -/
theorem runStart_reg (s : State) (r : RegIdx) : (runStart s).reg r = s.seed.reg r := by
  obtain ⟨-, hr⟩ | ⟨-, hr⟩ := runStart_cases s
  all_goals
    rw [hr]
    rfl

theorem seed_reg_arg0 (s : State) : s.seed.reg s.platform.regArg0 =
    if s.platform.x0Hardwired && s.platform.regArg0 == 0 then 0 else s.loaded.heapPointer := by
  rw [State.seed, State.setReg_reg_self]
  simp [State.isZeroReg]

theorem seed_reg_sp {s : State} (h : s.platform.regSp ≠ s.platform.regArg0) : s.seed.reg s.platform.regSp =
    if s.platform.x0Hardwired && s.platform.regSp == 0 then 0 else s.loaded.stackPointer := by
  rw [State.seed, State.setReg_reg_ne _ h, State.setReg_reg_self]
  simp [State.isZeroReg]

theorem seed_reg_other {s : State} {r : RegIdx} (hsp : r ≠ s.platform.regSp) (harg : r ≠ s.platform.regArg0) :
    s.seed.reg r = s.reg r := by
  rw [State.seed, State.setReg_reg_ne _ harg, State.setReg_reg_ne _ hsp, State.setPc_reg]

/-- Settles O56: the two register writes of the seeding, the second at `REG_ARG0`, and the write of the pc. -/
theorem runStartSeedsPcAndTwoRegisters : Obligations.RunStartSeedsPcAndTwoRegisters := by
  intro s hs
  refine ⟨_, step_of_idle hs, ?_⟩
  simp only [runStart_reg]
  rw [runStart_eq]
  exact ⟨rfl, fun r => seed_reg_other, seed_reg_arg0 s, seed_reg_sp, fun _ => rfl, rfl, rfl, rfl, rfl, rfl, rfl, rfl, rfl⟩

/-- Settles O57: the two cases of run start exclude each other. -/
theorem runStartsOnlyAboveZero : Obligations.RunStartsOnlyAboveZero := by
  intro s hs
  obtain ⟨htrace, hcode⟩ := s.seed_keeps
  refine ⟨_, step_of_idle hs, ?_⟩
  obtain ⟨hle, hr⟩ | ⟨hpos, hr⟩ := runStart_cases s
  all_goals rw [hr]
  · exact ⟨fun hpos => absurd hle (not_le.mpr hpos), fun _ => ⟨rfl, by rw [State.endRun_trace, htrace, hcode]⟩⟩
  · exact ⟨fun _ => ⟨rfl, htrace⟩, fun hle => absurd hle (not_le.mpr hpos)⟩

/-- Settles O58: run start of the constructed machine, run. -/
theorem resetIsRunStartOfTheConstructed : Obligations.ResetIsRunStartOfTheConstructed :=
  ⟨rfl, rfl, rfl, rfl, rfl, rfl, rfl, rfl, rfl, rfl⟩

end Sys2Proof.Machine.Claims
end
